-- ==== Sys2Proof/Word.lean ====
section
/-! DEFINITION. The word and byte of the Gremza 7310 (00_scope.md 4.3: a byte is 8 bits, a word is 4 bytes). -/

namespace Sys2Proof

/-- A word of the buses and of the register file: 4 bytes. -/
abbrev Word := BitVec 32

/-- A byte of a management transaction or of an event record. -/
abbrev Byte := BitVec 8

end Sys2Proof
end

