-- ==== Sys2Proof/Syntax.lean ====
section
/-! DEFINITION. Syntax: the commands of the block, one constructor of `Instr` per row of spec/opcode_table.json,
and the data they carry. -/

namespace Sys2Proof

/-- The two slave ports (Chapter 2): the producer's and the consumer's. -/
inductive Port where
  /-- P-port, the producer. -/
  | p
  /-- C-port, the consumer. -/
  | c
  deriving DecidableEq, Repr

/-- The two responses of the Gremza local bus (section 2.1). -/
inductive BusResp where
  | okay
  | error
  deriving DecidableEq, Repr

/-- A request on a port (section 2.1), with the codes of P_SIZE and P_BLEN (section 10.8). -/
structure Access where
  /-- ADDR: the byte address. -/
  addr : BitVec 32
  /-- WR: true for a write. -/
  write : Bool
  /-- SIZE: 0 is 1 byte, 1 is 2 bytes, 2 is 4 bytes; 3 fails the form test. -/
  size : BitVec 2
  /-- BLEN: 0 is 1 beat, 1 is 2, 2 is 4, 3 is 8. -/
  blen : BitVec 2
  /-- The write data, one word per beat, in order; empty for a read. -/
  wdata : List Word
  deriving DecidableEq, Repr

/-- The registers of the map (R181). -/
inductive RegName where
  | deviceId
  | devstat
  | devctl
  | evmask
  | fmode
  | fpre
  | fper
  | fcut
  | fmin
  | fndiv
  | counter
  | frameNumber
  | devqueue
  | groupControl (g : Fin 4)
  | groupStatus (g : Fin 4)
  /-- Descriptor word `k` of window `w`, at 0x100 + 0x40 w + 4 k. -/
  | descriptor (w : Fin 8) (k : Fin 8)
  /-- Status word `k` of window `w`, at 0x100 + 0x40 w + 0x20 + 4 k. -/
  | windowStatus (w : Fin 8) (k : Fin 8)
  | pageView (i : Fin 512)
  deriving DecidableEq, Repr

/-- The commands: the steps of the part, each whole and indivisible (95_what_each_step_holds.md). -/
inductive Instr where
  /-- ACCESS_ACCEPTED (R25): a master's request. -/
  | accessAccepted (port : Port) (a : Access)
  /-- GRANT (R136): the arbiter's decision. -/
  | grant
  /-- MEMORY_RESPONSE (R140), with the read data memory returned, beat by beat. -/
  | memoryResponse (resp : BusResp) (rdata : List Word)
  /-- TICK (R66): one tick of the prescaler. -/
  | tick
  /-- PERIOD_END (R73). -/
  | periodEnd
  /-- SYNTHESIZED_BOUNDARY (R75). -/
  | synthesizedBoundary
  /-- FSYNC_EDGE (R74): an accepted rising edge of FSYNC. -/
  | fsyncEdge
  /-- HOLD_TIMEOUT (R45). -/
  | holdTimeout
  /-- FSTB_PULSE_END (R81). -/
  | fstbPulseEnd
  /-- FRZ_RISE (R145). -/
  | frzRise
  /-- FRZ_FALL (R147). -/
  | frzFall
  /-- HARD_RESET (R23): RSTn asserted and released. -/
  | hardReset
  /-- READ_REG (R173) of a register number. -/
  | readReg (number : BitVec 16)
  /-- WRITE_REG (R174) to a register with no behaviour of its own. -/
  | writeReg (number : BitVec 16) (value : Word)
  /-- DESCRIPTOR_WRITE (R3): descriptor word `k` of window `w`. -/
  | descriptorWrite (w : Fin 8) (k : Fin 8) (value : Word)
  /-- DEVSTAT_WRITE (R164). -/
  | devstatWrite (value : Word)
  /-- DEVCTL_WRITE (R175). -/
  | devctlWrite (value : Word)
  /-- EVMASK_WRITE (R161). -/
  | evmaskWrite (value : Word)
  /-- FMODE_WRITE (R72). -/
  | fmodeWrite (value : Word)
  /-- FPRE_WRITE (R66). -/
  | fpreWrite (value : Word)
  /-- FPER_WRITE (R68). -/
  | fperWrite (value : Word)
  /-- FCUT_WRITE (R68). -/
  | fcutWrite (value : Word)
  /-- FMIN_WRITE (R70). -/
  | fminWrite (value : Word)
  /-- FNDIV_WRITE (R71). -/
  | fndivWrite (value : Word)
  /-- DEFLIM_WRITE (R87) for group `g`. -/
  | deflimWrite (g : Fin 4) (value : Word)
  /-- POP_EVENT (R162). -/
  | popEvent
  /-- BAD_COMMAND (R170): an unknown command byte. -/
  | badCommand (code : Byte)
  /-- UNKNOWN_ACTION (R177): an ACTION whose code names no action. -/
  | unknownAction (code : Byte) (arg : Byte)
  /-- TRANSACTION_CUT_SHORT (R169): MCSn rises after the bytes `received`. -/
  | transactionCutShort (received : List Byte)
  /-- ENABLE (R17); the argument byte is the window number. -/
  | enable (arg : Byte)
  /-- DISABLE (R19). -/
  | disable (arg : Byte)
  /-- DISARM (R98). -/
  | disarm (arg : Byte)
  /-- RESYNC (R22). -/
  | resync (arg : Byte)
  /-- BOUNDARY (R78); the argument byte is ignored. -/
  | boundary (arg : Byte)
  /-- FREEZE (R146); the argument byte is ignored. -/
  | freeze (arg : Byte)
  /-- RELEASE (R148); the argument byte is ignored. -/
  | release (arg : Byte)
  /-- ENGINE_RESET (R178); the argument byte is ignored. -/
  | engineReset (arg : Byte)
  /-- FSYNC_FALL (R77). -/
  | fsyncFall
  /-- MCSN_RISING_EDGE (R168). -/
  | mcsnRisingEdge
  deriving DecidableEq, Repr

end Sys2Proof
end

