-- ==== Sys2Proof/Decode.lean ====
section
/-! DEFINITION. Decode: register numbers (R181), the bytes of a management transaction (R169, R170, R177) and the
table's words. No row of spec/opcode_table.json gives bits, so `decodeTableWord` answers none. -/

namespace Sys2Proof

/-- Beats of an access by its length code (section 10.8): 1, 2, 4 or 8. -/
def Access.beats (a : Access) : Nat := 2 ^ a.blen.toNat

/-- The registers at 0x000 to 0x030, in order (R181). -/
def fixedRegisters : List RegName :=
  [.deviceId, .devstat, .devctl, .evmask, .fmode, .fpre, .fper, .fcut, .fmin, .fndiv, .counter, .frameNumber,
    .devqueue]

/-- The register of a window at word `j` of its 16: 0 to 7 the descriptor, 8 to 15 the status (R181). -/
def windowRegister (w j : Nat) : RegName :=
  if j < 8 then .descriptor (Fin.ofNat 8 w) (Fin.ofNat 8 j) else .windowStatus (Fin.ofNat 8 w) (Fin.ofNat 8 (j - 8))

/-- The register a number names, if it is a multiple of 4 and names one of the map (R173, R181). -/
def registerNamed (number : BitVec 16) : Option RegName :=
  let a := number.toNat
  if a % 4 ≠ 0 then none
  else if a < 0x34 then fixedRegisters[a / 4]?
  else if 0x40 ≤ a ∧ a < 0x50 then some (.groupControl (Fin.ofNat 4 ((a - 0x40) / 4)))
  else if 0x50 ≤ a ∧ a < 0x60 then some (.groupStatus (Fin.ofNat 4 ((a - 0x50) / 4)))
  else if 0x100 ≤ a ∧ a < 0x300 then some (windowRegister ((a - 0x100) / 64) ((a - 0x100) / 4 % 16))
  else if 0x400 ≤ a ∧ a < 0xC00 then some (.pageView (Fin.ofNat 512 ((a - 0x400) / 4)))
  else none

/-- The number of a register (R181). -/
def registerNumber : RegName → BitVec 16
  | .deviceId => 0x000#16
  | .devstat => 0x004#16
  | .devctl => 0x008#16
  | .evmask => 0x00C#16
  | .fmode => 0x010#16
  | .fpre => 0x014#16
  | .fper => 0x018#16
  | .fcut => 0x01C#16
  | .fmin => 0x020#16
  | .fndiv => 0x024#16
  | .counter => 0x028#16
  | .frameNumber => 0x02C#16
  | .devqueue => 0x030#16
  | .groupControl g => BitVec.ofNat 16 (0x40 + 4 * g.val)
  | .groupStatus g => BitVec.ofNat 16 (0x50 + 4 * g.val)
  | .descriptor w k => BitVec.ofNat 16 (0x100 + 0x40 * w.val + 4 * k.val)
  | .windowStatus w k => BitVec.ofNat 16 (0x120 + 0x40 * w.val + 4 * k.val)
  | .pageView i => BitVec.ofNat 16 (0x400 + 4 * i.val)

/-- The command of a WRITE_REG to a register number, each writable register by its own row (R174, R181). -/
def writeCommand (number : BitVec 16) (value : Word) : Instr :=
  match registerNamed number with
  | some .devstat => .devstatWrite value
  | some .devctl => .devctlWrite value
  | some .evmask => .evmaskWrite value
  | some .fmode => .fmodeWrite value
  | some .fpre => .fpreWrite value
  | some .fper => .fperWrite value
  | some .fcut => .fcutWrite value
  | some .fmin => .fminWrite value
  | some .fndiv => .fndivWrite value
  | some (.groupControl g) => .deflimWrite g value
  | some (.descriptor w k) => .descriptorWrite w k value
  | _ => .writeReg number value

/-- The command of an ACTION by its code (R177). -/
def actionCommand (code arg : Byte) : Instr :=
  if code = 0x01#8 then .enable arg
  else if code = 0x02#8 then .disable arg
  else if code = 0x03#8 then .disarm arg
  else if code = 0x04#8 then .resync arg
  else if code = 0x08#8 then .boundary arg
  else if code = 0x09#8 then .freeze arg
  else if code = 0x0A#8 then .release arg
  else if code = 0x0F#8 then .engineReset arg
  else .unknownAction code arg

/-- The action codes of R177. -/
def actionCodes : List Byte := [0x01#8, 0x02#8, 0x03#8, 0x04#8, 0x08#8, 0x09#8, 0x0A#8, 0x0F#8]

/-- The command bytes of R169. -/
def commandBytes : List Byte := [0x31#8, 0x32#8, 0x33#8, 0x34#8]

/-- The command that the whole bytes a master clocked in one transaction, before MCSn rose, make at their execution
point (R169); a transaction that does not reach it is cut short, and a byte that names no command is BAD_COMMAND
(R170). Multi-byte values come most significant byte first (R168). -/
def transactionOf (bytes : List Byte) : Instr :=
  match bytes with
  | [] => .transactionCutShort []
  | b :: rest =>
    if b = 0x31#8 then
      match rest with
      | n1 :: n0 :: _ => .readReg (n1 ++ n0)
      | _ => .transactionCutShort (b :: rest)
    else if b = 0x32#8 then
      match rest with
      | n1 :: n0 :: d3 :: d2 :: d1 :: d0 :: _ => writeCommand (n1 ++ n0) (d3 ++ d2 ++ d1 ++ d0)
      | _ => .transactionCutShort (b :: rest)
    else if b = 0x33#8 then
      match rest with
      | _ :: _ => .popEvent
      | _ => .transactionCutShort (b :: rest)
    else if b = 0x34#8 then
      match rest with
      | code :: arg :: _ => actionCommand code arg
      | _ => .transactionCutShort (b :: rest)
    else .badCommand b

/-- The two bytes of a register number, most significant first. -/
def bytesOf16 (n : BitVec 16) : List Byte := [n.extractLsb' 8 8, n.extractLsb' 0 8]

/-- The four bytes of a word, most significant first. -/
def bytesOf32 (v : Word) : List Byte :=
  [v.extractLsb' 24 8, v.extractLsb' 16 8, v.extractLsb' 8 8, v.extractLsb' 0 8]

/-- The bytes of a WRITE_REG (R169). -/
def writeBytes (number : BitVec 16) (value : Word) : List Byte := 0x32#8 :: (bytesOf16 number ++ bytesOf32 value)

/-- The bytes a master sends for a management command, up to and with its execution point (R169); none for a command
that is no transaction's. The byte after POP_EVENT's command byte is the one in which the status is returned. -/
def transactionBytes : Instr → Option (List Byte)
  | .accessAccepted _ _ => none
  | .grant => none
  | .memoryResponse _ _ => none
  | .tick => none
  | .periodEnd => none
  | .synthesizedBoundary => none
  | .fsyncEdge => none
  | .holdTimeout => none
  | .fstbPulseEnd => none
  | .frzRise => none
  | .frzFall => none
  | .hardReset => none
  | .readReg n => some (0x31#8 :: bytesOf16 n)
  | .writeReg n v => some (writeBytes n v)
  | .descriptorWrite w k v => some (writeBytes (registerNumber (.descriptor w k)) v)
  | .devstatWrite v => some (writeBytes (registerNumber .devstat) v)
  | .devctlWrite v => some (writeBytes (registerNumber .devctl) v)
  | .evmaskWrite v => some (writeBytes (registerNumber .evmask) v)
  | .fmodeWrite v => some (writeBytes (registerNumber .fmode) v)
  | .fpreWrite v => some (writeBytes (registerNumber .fpre) v)
  | .fperWrite v => some (writeBytes (registerNumber .fper) v)
  | .fcutWrite v => some (writeBytes (registerNumber .fcut) v)
  | .fminWrite v => some (writeBytes (registerNumber .fmin) v)
  | .fndivWrite v => some (writeBytes (registerNumber .fndiv) v)
  | .deflimWrite g v => some (writeBytes (registerNumber (.groupControl g)) v)
  | .popEvent => some [0x33#8, 0x00#8]
  | .badCommand b => some [b]
  | .unknownAction code arg => some [0x34#8, code, arg]
  | .transactionCutShort received => some received
  | .enable arg => some [0x34#8, 0x01#8, arg]
  | .disable arg => some [0x34#8, 0x02#8, arg]
  | .disarm arg => some [0x34#8, 0x03#8, arg]
  | .resync arg => some [0x34#8, 0x04#8, arg]
  | .boundary arg => some [0x34#8, 0x08#8, arg]
  | .freeze arg => some [0x34#8, 0x09#8, arg]
  | .release arg => some [0x34#8, 0x0A#8, arg]
  | .engineReset arg => some [0x34#8, 0x0F#8, arg]
  | .fsyncFall => none
  | .mcsnRisingEdge => none

/-- The command a word spells by the table's bits: no row of spec/opcode_table.json has bits, so none does. -/
def decodeTableWord (_nbits _w : Nat) : Option Instr := none

end Sys2Proof
end

