-- ==== Sys2Proof/Config.lean ====
section
/-! DEFINITION. Config: the figures the part fixes, and the free values (choices the manual leaves open). -/

namespace Sys2Proof

/-- R154: the Event Queue holds at most 32 records. -/
def Config.eventCapacity : Nat := 32

/-- R135: the streak count stops rising at 8. -/
def Config.streakLimit : Nat := 8

/-- R81: FSTB falls 4 BCLK periods after the latest boundary. -/
def Config.strobeLength : Nat := 4

/-- R77: an input is accepted at a new level after 4 consecutive samples, so the run count runs to 3. -/
def Config.filterRun : Nat := 3

/-- R181: the device identification. -/
def Config.deviceId : Word := 0x73100001#32

/-- FREE VALUE (log 5). Which of the six orders the events of one BCLK period are taken in, where the manual
says that each can be taken first (R76, R78, R150). The argument is `State.freeCount`. -/
opaque Config.bclkOrder : Nat → Fin 6

/-- FREE VALUE (log 6). Whether the C-port Handler's access is judged anew before the P-port Handler's, where one
step makes both handlers answer theirs; the manual gives their records no order. The argument is
`State.freeCount`. -/
opaque Config.consumerJudgedFirst : Nat → Bool

/-- FREE VALUE (log 22). Whether a change of MCSn is taken before a rising edge of MSCK that is sampled with it (R169).
The argument is `State.freeCount`. -/
opaque Config.selectFirst : Nat → Bool

end Sys2Proof
end

