-- ==== Sys2Proof/Machine/State.lean ====
section
/-! DEFINITION. State: every piece of state the manual gives the Gremza 7310, as plain data, with the queue of waiting
commands; the reasons a step can stop; and the state right after a hard reset. -/

namespace Sys2Proof.Machine

/-- The two physical copies of a page (Chapter 1). -/
inductive Bank where
  | a
  | b
  deriving DecidableEq, Repr

/-- R10, R11: the six states of a page entry. -/
inductive PageState where
  | unused
  | synced
  | dirty
  | stale
  | copying
  | broken
  deriving DecidableEq, Repr

/-- R10: one Page Map entry. -/
structure PageEntry where
  state : PageState
  bank : Bank
  /-- The attempt count, 0 to 3. -/
  attempts : BitVec 2
  deriving DecidableEq, Repr

/-- R1: the eleven descriptor fields, with the widths of R181. -/
structure Descriptor where
  viewBase : BitVec 32
  bankABase : BitVec 32
  bankBBase : BitVec 32
  pageSize : BitVec 10
  pageFirst : BitVec 9
  pageCount : BitVec 10
  group : BitVec 2
  policy : BitVec 2
  guard : Bool
  cma : BitVec 32
  lma : BitVec 32
  deriving DecidableEq, Repr

/-- R4: the enable state of a window. -/
inductive EnableState where
  | disabled
  | enabled
  | draining
  deriving DecidableEq, Repr

/-- R5: the commit state of a window (OPEN, ARMED_LATE, ARMED). -/
inductive CommitState where
  | isOpen
  | armedLate
  | armed
  deriving DecidableEq, Repr

/-- R7: the bracket of a window (CLOSED, OPEN, REVOKED). -/
inductive Bracket where
  | closed
  | isOpen
  | revoked
  deriving DecidableEq, Repr

/-- A window: its descriptor (R1) and its live state (section 1.2). -/
structure Window where
  desc : Descriptor
  enable : EnableState
  commit : CommitState
  armedTag : Word
  armPhase : BitVec 24
  committedTag : Word
  lastCommitFrame : BitVec 16
  bracket : Bracket
  /-- R8: the ready report pending flag. -/
  readyPending : Bool
  deriving DecidableEq, Repr

/-- R50: the three marker words of a window. -/
inductive Marker where
  | commit
  | leaseOpen
  | leaseClose
  deriving DecidableEq, Repr

/-- R30: the class of an access, with what the class names. -/
inductive AccessClass where
  | marker (w : Fin 8) (m : Marker)
  /-- An address in the view of `w`, in page `page`, served from `bank` (R33). -/
  | view (w : Fin 8) (page : Fin 512) (bank : Bank)
  | bankRegion (w : Fin 8) (bank : Bank)
  | plain
  deriving DecidableEq, Repr

/-- R29: what a judgement gives an access that goes to memory: its class and its resolved address. -/
structure Resolution where
  cls : AccessClass
  addr : BitVec 32
  deriving DecidableEq, Repr

/-- R28: the reason of a HELD access. -/
inductive HoldReason where
  | demand
  | sealed
  deriving DecidableEq, Repr

/-- R28: the phases of a handler, each with the access it holds. -/
inductive Phase where
  | idle
  | pending (a : Access) (r : Resolution)
  /-- A producer write held for `why`, into page `page` of window `w`. -/
  | held (a : Access) (why : HoldReason) (w : Fin 8) (page : Fin 512)
  | issued (a : Access) (r : Resolution)
  deriving DecidableEq, Repr

/-- R27: a response, with the read data of every beat of a read. -/
structure Response where
  resp : BusResp
  rdata : List Word
  deriving DecidableEq, Repr

/-- A port handler (R28) and the response it gave last; none while it holds an access (log 16). -/
structure PortState where
  phase : Phase
  resp : Option Response
  deriving DecidableEq, Repr

/-- R86: the state of a commit group. -/
inductive GroupState where
  | idle
  | deferred
  deriving DecidableEq, Repr

/-- A commit group (Chapter 5). -/
structure Group where
  state : GroupState
  /-- The deferral count, 0 to 15. -/
  count : BitVec 4
  /-- DEFLIM, 0 to 15. -/
  limit : BitVec 4
  deriving DecidableEq, Repr

/-- R102: the origin of a commit. -/
inductive Origin where
  | boundary
  | forced
  | close
  deriving DecidableEq, Repr

/-- R100: a commit that has been taken: its group, its set of windows in ascending number, its origin. -/
structure TakenCommit where
  group : Fin 4
  set : List (Fin 8)
  origin : Origin
  deriving DecidableEq, Repr

/-- R113: the phase of the Copy Engine. -/
inductive EnginePhase where
  | idle
  | read
  | write
  deriving DecidableEq, Repr

/-- R113: the Copy Engine. -/
structure Engine where
  phase : EnginePhase
  /-- The page in flight. -/
  page : Option (Fin 512)
  /-- The pair number. -/
  pair : Nat
  /-- Burst issued. -/
  issued : Bool
  /-- The pair buffer, 8 words. -/
  buffer : List Word
  deriving DecidableEq, Repr

/-- R133: who holds the M-port. -/
inductive Requester where
  | producer
  | consumer
  | copy
  deriving DecidableEq, Repr

/-- R133: the M-port, FREE or BUSY with its holder and the access presented to memory. -/
inductive MPort where
  | free
  | busy (holder : Requester) (a : Access)
  deriving DecidableEq, Repr

/-- R135: the round-robin pointer. -/
inductive Pointer where
  | producer
  | copy
  deriving DecidableEq, Repr

/-- R72: the mode of the Frame Timer. -/
inductive TimerMode where
  | off
  | internal
  | external
  deriving DecidableEq, Repr

/-- R75: the sync state. -/
inductive SyncState where
  | seeking
  | locked
  | lost
  deriving DecidableEq, Repr

/-- The Frame Timer (Chapter 4). -/
structure Timer where
  mode : TimerMode
  counter : BitVec 24
  /-- The prescaler's count of BCLK periods. -/
  prescale : Nat
  fpre : BitVec 7
  /-- FPER in force. -/
  fper : BitVec 24
  /-- FCUT in force. -/
  fcut : BitVec 24
  /-- The pending FPER. -/
  pendFper : Option (BitVec 24)
  /-- The pending FCUT. -/
  pendFcut : Option (BitVec 24)
  fmin : BitVec 24
  fndiv : BitVec 4
  /-- The frame number. -/
  frame : BitVec 16
  sync : SyncState
  /-- BCLK periods for which FSTB stays high; FSTB is low at 0 (R81). -/
  strobe : Nat
  deriving DecidableEq, Repr

/-- R77: an input filter, with the level now on its input pin. -/
structure Filter where
  /-- The level on the pin. -/
  pin : Bool
  /-- The accepted level. -/
  accepted : Bool
  /-- The run count, 0 to 3. -/
  run : Nat
  deriving DecidableEq, Repr

/-- R144: the Freeze Unit. -/
structure FreezeUnit where
  latch : Bool
  line : Bool
  command : Bool
  /-- The line level, high or low. -/
  level : Bool
  deriving DecidableEq, Repr

/-- R156: the kinds of event record, NONE among them (R162). -/
inductive EventKind where
  | none
  | commit
  | commitDeferred
  | commitForced
  | freezeSkip
  | frozen
  | released
  | markerLate
  | lateWrite
  | holdTimeout
  | ownership
  | guard
  | alignFault
  | memoryError
  | copyRetry
  | pageBroken
  | pageBrokenWrite
  | windowReady
  | windowDisabled
  | syncLocked
  | syncLost
  | syncEarly
  | frame
  | leaseDouble
  deriving DecidableEq, Repr

/-- R156: an event record; a field left out has its unused value. -/
structure Event where
  kind : EventKind
  window : Option (Fin 8) := .none
  group : Option (Fin 4) := .none
  detail : Byte := 0#8
  frame : BitVec 16 := 0#16
  page : Option (Fin 512) := .none
  tag : Word := 0#32
  phase : BitVec 24 := 0#24
  count : Byte := 0#8
  deriving DecidableEq, Repr

/-- R168, R179: the framing of the management port; MCSn is high in `ready` and low in the others. -/
inductive PortFraming where
  /-- MCSn high: no transaction. -/
  | ready
  /-- MCSn has fallen: a transaction is open and has not reached its execution point. -/
  | opened
  /-- A transaction has been executed; MCSn is still low. -/
  | answered
  /-- MCSn was low when RSTn was released; the port ignores MSCK and MSI until it has risen. -/
  | ignoring
  deriving DecidableEq, Repr

/-- The Management Port's transaction in progress (R168, R169), and the level of MSCK at its last sample. -/
structure ManagementPort where
  framing : PortFraming
  /-- The bytes that the transaction executed returns, its status byte first. -/
  out : List Byte
  /-- The whole bytes sampled from MSI since MCSn fell, while the execution point is not reached. -/
  received : List Byte := []
  /-- The shift register: the bits of the present byte sampled so far in its low positions, the last one in bit 0. -/
  shift : Byte := 0#8
  /-- The bits of the present byte that have been clocked, 0 to 7. -/
  bit : Nat := 0
  /-- The byte of `out` that the present byte returns. -/
  index : Nat := 0
  /-- The level driven on MSO, where it is driven. -/
  mso : Bool := false
  /-- The level of MSCK at its last sample. -/
  msck : Bool := false
  deriving DecidableEq, Repr

/-- The levels the board drives on FSYNC, FRZ, MCSn, MSCK and MSI in one BCLK period (section 10.8). -/
structure BoardLevels where
  fsync : Bool
  frz : Bool
  mcsn : Bool
  msck : Bool := false
  msi : Bool := false
  deriving DecidableEq, Repr

/-- The block's whole state. -/
structure State where
  /-- Window Table and live window state, windows 0 to 7. -/
  windows : Vector Window 8
  /-- The Page Map. -/
  pages : Vector PageEntry 512
  /-- The commit groups 0 to 3. -/
  groups : Vector Group 4
  /-- The pending flip (R100, R103). -/
  pendingFlip : Option TakenCommit
  /-- The P-port Handler. -/
  pPort : PortState
  /-- The C-port Handler. -/
  cPort : PortState
  /-- The hold count (R45). -/
  holdCount : Nat
  /-- HOLDMAX (R45). -/
  holdMax : BitVec 3
  /-- The merge-noted flags of windows 0 to 7 (R42). -/
  mergeNoted : Vector Bool 8
  /-- The Copy Queue, head first (R110). -/
  copyQueue : List (Fin 512)
  engine : Engine
  mport : MPort
  /-- The MODEL's own: a response freed the M-port, and the decision at that freeing is not taken, so that other events
  can come before it (R129, R141; log 3). -/
  freed : Bool
  /-- The streak count (R135). -/
  streak : Nat
  pointer : Pointer
  timer : Timer
  fsync : Filter
  frz : Filter
  freeze : FreezeUnit
  /-- The Event Queue, oldest first (R154). -/
  events : List Event
  overrun : Bool
  evmask : Word
  irqEnable : Bool
  mgmt : ManagementPort
  /-- The MODEL's own: the levels the board drives in the BCLK periods to come, first in, first out; where none is
  left the inputs keep their levels (log 4). -/
  board : List BoardLevels
  /-- The MODEL's own: a fresh argument for each free value (log 5, 6). -/
  freeCount : Nat
  /-- The MODEL's own: the commands that wait, first in, first out (log 15). -/
  pending : List Instr
  deriving DecidableEq, Repr

/-- The reasons a step can stop with a fault: none. The manual gives every command an effect in every state, its
"faults" being responses and event records, so no command raises one. -/
inductive Fault where
  deriving DecidableEq, Repr

/-- The reasons a step can be refused. -/
inductive Refusal where
  /-- A command that has no meaning yet, named by its mnemonic. Raised by no arm of `exec`; safe. -/
  | notModelled (mnemonic : String)
  deriving DecidableEq, Repr

/-- R1: a descriptor at its hard-reset values. -/
def Descriptor.reset : Descriptor :=
  { viewBase := 0#32, bankABase := 0#32, bankBBase := 0#32, pageSize := 0#10, pageFirst := 0#9, pageCount := 0#10,
    group := 0#2, policy := 0#2, guard := false, cma := 0#32, lma := 0#32 }

/-- R23: a window after a hard reset. -/
def Window.reset : Window :=
  { desc := Descriptor.reset, enable := .disabled, commit := .isOpen, armedTag := 0#32, armPhase := 0#24,
    committedTag := 0#32, lastCommitFrame := 0#16, bracket := .closed, readyPending := false }

/-- R23: a page entry after a hard reset. -/
def PageEntry.reset : PageEntry := { state := .unused, bank := .a, attempts := 0#2 }

/-- R107: a commit group after a hard reset. -/
def Group.reset : Group := { state := .idle, count := 0#4, limit := 2#4 }

/-- R28, R49: a handler after a hard reset; no response has been given (log 16). -/
def PortState.reset : PortState := { phase := .idle, resp := none }

/-- R131: the Copy Engine after a hard reset. DESIGN CHOICE (log 1): the pair buffer holds zeros. -/
def Engine.reset : Engine := { phase := .idle, page := none, pair := 0, issued := false, buffer := List.replicate 8 0#32 }

/-- R82: the Frame Timer after a hard reset. -/
def Timer.reset : Timer :=
  { mode := .off, counter := 0#24, prescale := 0, fpre := 1#7, fper := 65535#24, fcut := 0#24, pendFper := none,
    pendFcut := none, fmin := 0#24, fndiv := 1#4, frame := 0#16, sync := .seeking, strobe := 0 }

/-- R77: a filter after a hard reset. DESIGN CHOICE (log 1): its pin is low. -/
def Filter.reset : Filter := { pin := false, accepted := false, run := 0 }

/-- R152: the Freeze Unit after a hard reset. -/
def FreezeUnit.reset : FreezeUnit := { latch := false, line := false, command := false, level := false }

/-- The machine right after a hard reset (R23, R49, R82, R107, R131, R143, R152, R166, R179), nothing waiting. -/
def State.reset : State :=
  { windows := Vector.replicate 8 Window.reset
    pages := Vector.replicate 512 PageEntry.reset
    groups := Vector.replicate 4 Group.reset
    pendingFlip := none
    pPort := PortState.reset
    cPort := PortState.reset
    holdCount := 0
    holdMax := 2#3
    mergeNoted := Vector.replicate 8 false
    copyQueue := []
    engine := Engine.reset
    mport := .free
    freed := false
    streak := 0
    pointer := .copy
    timer := Timer.reset
    fsync := Filter.reset
    frz := Filter.reset
    freeze := FreezeUnit.reset
    events := []
    overrun := false
    evmask := 0x00FFFFFE#32
    irqEnable := false
    mgmt := { framing := .ready, out := [] }
    board := []
    freeCount := 0
    pending := [] }

end Sys2Proof.Machine
end

