-- ==== Sys2Proof/Machine/Flags.lean ====
section
/-! DEFINITION. Flags: the output lines, the codes of records and status bytes, and the levels computed from the
state (Chapters 9 and 10). -/

namespace Sys2Proof.Machine

/-- R180: the code of a kind, which is also the bit of its enable in EVMASK; NONE is 0x00. -/
def EventKind.code : EventKind → Byte
  | .none => 0x00#8
  | .commit => 0x01#8
  | .commitDeferred => 0x02#8
  | .commitForced => 0x03#8
  | .freezeSkip => 0x04#8
  | .frozen => 0x05#8
  | .released => 0x06#8
  | .markerLate => 0x07#8
  | .lateWrite => 0x08#8
  | .holdTimeout => 0x09#8
  | .ownership => 0x0A#8
  | .guard => 0x0B#8
  | .alignFault => 0x0C#8
  | .memoryError => 0x0D#8
  | .copyRetry => 0x0E#8
  | .pageBroken => 0x0F#8
  | .pageBrokenWrite => 0x10#8
  | .windowReady => 0x11#8
  | .windowDisabled => 0x12#8
  | .syncLocked => 0x13#8
  | .syncLost => 0x14#8
  | .syncEarly => 0x15#8
  | .frame => 0x16#8
  | .leaseDouble => 0x17#8

/-- R180: the detail code of a commit's origin. -/
def Origin.code : Origin → Byte
  | .boundary => 0x01#8
  | .forced => 0x02#8
  | .close => 0x03#8

/-- R180: the detail code of a bank. -/
def Bank.code : Bank → Byte
  | .a => 0x01#8
  | .b => 0x02#8

/-- R180: the detail code of a port. -/
def portCode : Port → Byte
  | .p => 0x01#8
  | .c => 0x02#8

/-- R180: the detail COPY of a MEMORY_ERROR. -/
def copyDetail : Byte := 0x03#8

/-- R161: the positions of EVMASK that name a kind. -/
def kindPositions : Word := 0x00FFFFFE#32

/-- R161: whether a mask records a kind. -/
def maskAllows (mask : Word) (k : EventKind) : Bool := mask.getLsbD k.code.toNat

/-- R180: a byte for an item that may be none (0xFF). -/
def optionByte (n : Option Nat) : Byte := (n.map (BitVec.ofNat 8)).getD 0xFF#8

/-- R180: the 16 bytes of a record, in the order POP_EVENT shifts them out. -/
def Event.bytes (e : Event) : List Byte :=
  let page : BitVec 16 := (e.page.map fun p => BitVec.ofNat 16 p.val).getD 0xFFFF#16
  [e.kind.code, optionByte (e.window.map (·.val)), optionByte (e.group.map (·.val)), e.detail,
    e.frame.extractLsb' 8 8, e.frame.extractLsb' 0 8, page.extractLsb' 8 8, page.extractLsb' 0 8,
    e.tag.extractLsb' 24 8, e.tag.extractLsb' 16 8, e.tag.extractLsb' 8 8, e.tag.extractLsb' 0 8,
    e.phase.extractLsb' 16 8, e.phase.extractLsb' 8 8, e.phase.extractLsb' 0 8, e.count]

/-- R171: the six status values. -/
inductive Status where
  | ok
  | busy
  | refusedConfig
  | refusedState
  | refusedLine
  | badCommand
  deriving DecidableEq, Repr

/-- R171: the code of a status. -/
def Status.code : Status → Byte
  | .ok => 0x01#8
  | .busy => 0x02#8
  | .refusedConfig => 0x03#8
  | .refusedState => 0x04#8
  | .refusedLine => 0x05#8
  | .badCommand => 0x06#8

/-- R165: the IRQ output. -/
def State.irq (s : State) : Bool := s.irqEnable && (!s.events.isEmpty || s.overrun)

/-- R81: the FSTB output. -/
def State.fstb (s : State) : Bool := decide (0 < s.timer.strobe)

/-- R168, R179: whether the port drives MSO: from the fall of MCSn that opens a transaction until MCSn rises. -/
def State.msoDriven (s : State) : Bool := s.mgmt.framing == .opened || s.mgmt.framing == .answered

/-- R168, R176: the byte returned before the execution point: 0x00 in the command and argument bytes, and OK in the byte
after POP_EVENT's command byte, at whose end the pop is taken. -/
def ManagementPort.openByte (m : ManagementPort) : Byte := if m.received = [0x33#8] then Status.ok.code else 0x00#8

/-- R168, R170, R176: the byte that the port returns in the present byte: after the execution point the bytes of the
answer in turn, and 0x00 after the last. -/
def ManagementPort.returned (m : ManagementPort) : Byte :=
  match m.framing with
  | .ready => 0x00#8
  | .opened => m.openByte
  | .answered => m.out.getD m.index 0x00#8
  | .ignoring => 0x00#8

/-- R168, R179: the level on MSO, none while the port leaves it undriven. -/
def State.msoLevel (s : State) : Option Bool := if s.msoDriven then some s.mgmt.mso else none

/-- R168: the byte that the port is returning on MSO, none while MSO is undriven. -/
def State.msoByte (s : State) : Option Byte := if s.msoDriven then some s.mgmt.returned else none

/-- R25: the ready output of a port: high while its handler is idle. -/
def PortState.ready (x : PortState) : Bool := x.phase == .idle

/-- R39, R119: the demand indication the P-port Handler presents, naming the page. -/
def State.demandPage (s : State) : Option (Fin 512) :=
  match s.pPort.phase with
  | .held _ .demand _ p => some p
  | _ => none

/-- R28: the P-port Handler holds a write with reason SEALED. -/
def State.sealedHold (s : State) : Bool :=
  match s.pPort.phase with
  | .held _ .sealed _ _ => true
  | _ => false

/-- R67: a tick would bring the counter to the FPER in force. -/
def Timer.periodDue (t : Timer) : Bool := decide (t.fper.toNat ≤ t.counter.toNat + 1)

/-- R68: the FPER that will apply. -/
def Timer.nextFper (t : Timer) : BitVec 24 := t.pendFper.getD t.fper

/-- R68: the FCUT that will apply. -/
def Timer.nextFcut (t : Timer) : BitVec 24 := t.pendFcut.getD t.fcut

/-- R54: the cutoff test finds a marker late. -/
def Timer.late (t : Timer) : Bool := decide (t.fcut ≠ 0#24) && decide (t.fcut.toNat ≤ t.counter.toNat)

/-- R79: the frame number is a multiple of FNDIV. -/
def Timer.frameDue (t : Timer) : Bool := t.frame.toNat % t.fndiv.toNat == 0

end Sys2Proof.Machine
end

