-- ==== Sys2Proof/Machine/Ops.lean ====
section
/-! DEFINITION. Ops: the named reads and writes of the state's parts, the arrival of a record (Chapter 9), the
response of a port (R27), and the lines and the framing of the management port (R168, R169). A block raises no
exception: these are its shared operations. -/

namespace Sys2Proof.Machine

/-- Every element of a vector through a function (by its list, which the kernel evaluates). -/
def vecMap {α β : Type} {n : Nat} (f : α → β) (v : Vector α n) : Vector β n :=
  ⟨⟨v.toArray.toList.map f⟩, by simp⟩

/-- Every element of a vector through a function of its index. -/
def vecMapIdx {α β : Type} {n : Nat} (f : Nat → α → β) (v : Vector α n) : Vector β n :=
  ⟨⟨v.toArray.toList.zipIdx.map fun x => f x.2 x.1⟩, by simp⟩

/-- The windows in ascending number. -/
def allWindows : List (Fin 8) := [0, 1, 2, 3, 4, 5, 6, 7]

/-- The commit groups in ascending number. -/
def allGroups : List (Fin 4) := [0, 1, 2, 3]

/-! ## Windows, pages, groups and ports -/

def State.window (s : State) (w : Fin 8) : Window := s.windows[w.val]

def State.setWindow (s : State) (w : Fin 8) (x : Window) : State := { s with windows := s.windows.set w.val x }

/-- Every window through a function. -/
def State.mapWindows (s : State) (f : Window → Window) : State := { s with windows := vecMap f s.windows }

/-- The window is in service (R4). -/
def State.enabled (s : State) (w : Fin 8) : Bool := (s.window w).enable == .enabled

def State.page (s : State) (p : Fin 512) : PageEntry := s.pages[p.val]

def State.setPage (s : State) (p : Fin 512) (e : PageEntry) : State := { s with pages := s.pages.set p.val e }

/-- Every page entry through a function of its index. -/
def State.mapPages (s : State) (f : Fin 512 → PageEntry → PageEntry) : State :=
  { s with pages := vecMapIdx (fun i e => f (Fin.ofNat 512 i) e) s.pages }

def State.group (s : State) (g : Fin 4) : Group := s.groups[g.val]

def State.setGroup (s : State) (g : Fin 4) (x : Group) : State := { s with groups := s.groups.set g.val x }

def State.noted (s : State) (w : Fin 8) : Bool := s.mergeNoted[w.val]

def State.setNoted (s : State) (w : Fin 8) (b : Bool) : State := { s with mergeNoted := s.mergeNoted.set w.val b }

def State.port (s : State) : Port → PortState
  | .p => s.pPort
  | .c => s.cPort

def State.setPort (s : State) (x : Port) (v : PortState) : State :=
  match x with
  | .p => { s with pPort := v }
  | .c => { s with cPort := v }

/-- The phase of a handler. -/
def State.phaseOf (s : State) (x : Port) : Phase := (s.port x).phase

/-! ## The Event Queue -/

/-- R155: a record arrives at the Event Queue: dropped by the mask, kept at the tail, or discarded with OVERRUN set. -/
def State.arrive (s : State) (e : Event) : State :=
  if maskAllows s.evmask e.kind then
    if s.events.length < Config.eventCapacity then { s with events := s.events ++ [e] } else { s with overrun := true }
  else s

/-- R156: a block makes a record; the frame number is filled with the one standing at the step. -/
def State.record (s : State) (e : Event) : State := s.arrive { e with frame := s.timer.frame }

/-! ## Responses and responders -/

/-- R27: the beats of a read's data as memory returned them, zero where it returned none (R47; log 12). -/
def readBeats (a : Access) (rdata : List Word) : List Word :=
  if a.write then [] else (List.range a.beats).map fun i => rdata.getD i 0#32

/-- R27: the handler gives its response and is idle. -/
def State.respond (s : State) (x : Port) (r : BusResp) (rdata : List Word) : State :=
  s.setPort x { phase := .idle, resp := some { resp := r, rdata := rdata } }

/-- R27: the bridge itself answers ERROR; a read carries zero on every beat. -/
def State.refuseAccess (s : State) (x : Port) (a : Access) : State := s.respond x .error (readBeats a [])

/-- R25, R28: the handler holds an access, in the phase given, and has given it no response. -/
def State.setPhase (s : State) (x : Port) (ph : Phase) : State := s.setPort x { phase := ph, resp := none }

/-! ## The Copy Queue -/

/-- R119: a STALE page is moved to the head; the other queued pages keep their order. A page in another state is not
moved. -/
def State.promote (s : State) (p : Fin 512) : State :=
  if (s.page p).state = .stale then { s with copyQueue := p :: s.copyQueue.filter (· ≠ p) } else s

/-! ## The management port's framing -/

/-- R168, R179: MCSn rises, or is high: no transaction is open, MSO is undriven, and the bits of an unfinished byte and
the bytes not clocked out are lost. -/
def ManagementPort.idle (m : ManagementPort) : ManagementPort := { framing := .ready, out := [], msck := m.msck }

/-- R168: the port takes a sample of MCSn: a fall opens a transaction, a rise ends it. -/
def ManagementPort.select (m : ManagementPort) (mcsn : Bool) : ManagementPort :=
  if mcsn then m.idle
  else
    match m.framing with
    | .ready => { framing := .opened, out := [], msck := m.msck }
    | .opened => m
    | .answered => m
    | .ignoring => m

/-- R168: the shift register with one more bit of MSI, the most significant bit of a byte coming first. -/
def ManagementPort.shifted (m : ManagementPort) (msi : Bool) : Byte := m.shift.extractLsb' 0 7 ++ BitVec.ofBool msi

/-- R168: a rising edge of MSCK. An open transaction samples MSI, eight bits making a byte; after the execution point the
edges count the bits returned and MSI is ignored. -/
def ManagementPort.rise (m : ManagementPort) (msi : Bool) : ManagementPort :=
  match m.framing with
  | .ready => m
  | .opened =>
    if 7 ≤ m.bit then { m with shift := m.shifted msi, bit := 0, received := m.received ++ [m.shifted msi] }
    else { m with shift := m.shifted msi, bit := m.bit + 1 }
  | .answered => if 7 ≤ m.bit then { m with bit := 0, index := m.index + 1 } else { m with bit := m.bit + 1 }
  | .ignoring => m

/-- R168: a falling edge of MSCK, after which MSO is the next bit of the byte returned, its most significant first. -/
def ManagementPort.fall (m : ManagementPort) : ManagementPort :=
  match m.framing with
  | .ready => m
  | .opened => { m with mso := m.returned.getLsbD (7 - m.bit) }
  | .answered => { m with mso := m.returned.getLsbD (7 - m.bit) }
  | .ignoring => m

/-- R168: MSCK rises with a sample. -/
def ManagementPort.rises (m : ManagementPort) (msck : Bool) : Bool := msck && !m.msck

/-- R168: the port takes a sample of MSCK, with the level of MSI. -/
def ManagementPort.clock (m : ManagementPort) (msck msi : Bool) : ManagementPort :=
  let t := { m with msck := msck }
  if m.rises msck then t.rise msi else if m.msck && !msck then t.fall else t

/-- R169: the command of a transaction whose bytes so far reach its execution point. -/
def completed (bytes : List Byte) : Option Instr :=
  match transactionOf bytes with
  | .transactionCutShort _ => none
  | c => some c

/-- R169: the command whose execution point a sample of MSCK is: the eighth rising edge of its last byte. -/
def ManagementPort.completes (m : ManagementPort) (msck msi : Bool) : Option Instr :=
  match m.framing with
  | .ready => none
  | .opened => if m.rises msck && decide (7 ≤ m.bit) then completed (m.received ++ [m.shifted msi]) else none
  | .answered => none
  | .ignoring => none

/-- The levels of the serial lines with a change of MCSn taken first, and then an edge of MSCK. A command whose execution
point the edge is comes in front of the queue: it is the next event (log 10). -/
def State.selectThenClock (s : State) (l : BoardLevels) : State :=
  let m := s.mgmt.select l.mcsn
  { s with mgmt := m.clock l.msck l.msi, pending := (m.completes l.msck l.msi).toList ++ s.pending }

/-- The levels of the serial lines with an edge of MSCK taken first, and then a change of MCSn. Where the edge is an
execution point, the command and the rise of MCSn after it are the next two events (R169). -/
def State.clockThenSelect (s : State) (l : BoardLevels) : State :=
  match s.mgmt.completes l.msck l.msi with
  | some c => { s with mgmt := s.mgmt.clock l.msck l.msi, pending := c :: .mcsnRisingEdge :: s.pending }
  | none => { s with mgmt := (s.mgmt.clock l.msck l.msi).select l.mcsn }

/-- R168, R169: the port samples its lines. Where MCSn changes and MSCK rises in one sample, which is taken first is a
free value (log 22). -/
def State.samplePort (s : State) (l : BoardLevels) : State :=
  if s.mgmt.rises l.msck && (l.mcsn != (s.mgmt.framing == .ready)) then
    let t := { s with freeCount := s.freeCount + 1 }
    if Config.selectFirst s.freeCount then t.selectThenClock l else t.clockThenSelect l
  else s.selectThenClock l

/-- R168, R169: the port right after a transaction has been executed, at a rising edge of MSCK: `out` is what it returns,
and the present byte returns byte `index` of it. MSO is still the last bit of the byte before. -/
def ManagementPort.executed (out : List Byte) (index : Nat) : ManagementPort :=
  { framing := .answered, out := out, index := index, msck := true,
    mso := match index with
      | 0 => false
      | n + 1 => (out.getD n 0x00#8).getLsbD 0 }

/-- R168, R169: a transaction at the port: `body` gives the state it leaves and the bytes it returns, and `index` is the
one that follows the execution point. Where MCSn is high its fall is part of the transaction; where it is open the
transaction is the one that began with that fall, and the bytes received are its first. A port whose MCSn has not risen
since the last transaction, or since a hard reset, ignores the bytes (R168, R179; log 10). -/
def State.transactAt (index : Nat) (s : State) (body : State → State × List Byte) : State :=
  let t := { (body s).1 with mgmt := .executed (body s).2 index }
  match s.mgmt.framing with
  | .ready => t
  | .opened => t
  | .answered => s
  | .ignoring => s

/-- R169: a transaction whose status byte follows its execution point: every one but POP_EVENT. -/
def State.transact (s : State) (body : State → State × List Byte) : State := s.transactAt 0 body

/-- A transaction that returns its status byte alone (R169: WRITE_REG and ACTION). -/
def State.transactStatus (s : State) (body : State → State × Status) : State :=
  s.transact fun t => ((body t).1, [(body t).2.code])

end Sys2Proof.Machine
end

