-- ==== Sys2Proof/Machine/Operands.lean ====
section
/-! DEFINITION. Operands: the form of an access (R26), the geometry of a window (R2), the class of an address (R30)
and its page and bank addresses (R33, R115). -/

namespace Sys2Proof.Machine

/-! ## The form test -/

/-- R26: the access passes the form test. -/
def formOk (a : Access) : Bool :=
  if a.blen = 0#2 then
    if a.size = 0#2 then true
    else if a.size = 1#2 then a.addr.toNat % 2 == 0
    else if a.size = 2#2 then a.addr.toNat % 4 == 0
    else false
  else a.size == 2#2 && a.addr.toNat % (4 * a.beats) == 0

/-! ## Geometry (R2) -/

/-- A range of byte addresses. -/
structure Region where
  base : Nat
  size : Nat
  deriving DecidableEq, Repr

def Region.has (r : Region) (x : Nat) : Bool := decide (r.base ≤ x) && decide (x < r.base + r.size)

/-- Two ranges share an address. -/
def Region.overlaps (r t : Region) : Bool := decide (r.base < t.base + t.size) && decide (t.base < r.base + r.size)

/-- R2: the view size, PAGE_COUNT × PAGE_SIZE. -/
def Descriptor.viewSize (d : Descriptor) : Nat := d.pageCount.toNat * d.pageSize.toNat

def Descriptor.view (d : Descriptor) : Region := { base := d.viewBase.toNat, size := d.viewSize }

def Descriptor.bankBase (d : Descriptor) : Bank → BitVec 32
  | .a => d.bankABase
  | .b => d.bankBBase

def Descriptor.bankRegion (d : Descriptor) (bank : Bank) : Region := { base := (d.bankBase bank).toNat, size := d.viewSize }

/-- R2: the three marker words: at CMA, LMA and LMA + 4. -/
def Descriptor.markerWords (d : Descriptor) : List Region :=
  [{ base := d.cma.toNat, size := 4 }, { base := d.lma.toNat, size := 4 }, { base := d.lma.toNat + 4, size := 4 }]

/-- R2: the entry lies in the run of the window. -/
def Descriptor.inRun (d : Descriptor) (p : Fin 512) : Bool :=
  decide (d.pageFirst.toNat ≤ p.val) && decide (p.val < d.pageFirst.toNat + d.pageCount.toNat)

/-- R2: the run of the window, in ascending index. -/
def Descriptor.run (d : Descriptor) : List (Fin 512) :=
  (List.range' d.pageFirst.toNat d.pageCount.toNat).map (Fin.ofNat 512)

/-- The other bank of a page. -/
def Bank.other : Bank → Bank
  | .a => .b
  | .b => .a

/-- R33: the page index of a view address. -/
def Descriptor.pageAt (d : Descriptor) (x : BitVec 32) : Fin 512 :=
  Fin.ofNat 512 (d.pageFirst.toNat + (x.toNat - d.viewBase.toNat) / d.pageSize.toNat)

/-- R33: the address in a bank that serves a view address. -/
def Descriptor.bankAddr (d : Descriptor) (bank : Bank) (x : BitVec 32) : BitVec 32 := d.bankBase bank + (x - d.viewBase)

/-- R115: the address of pair `n` of page `p` in a bank. -/
def Descriptor.pairAddr (d : Descriptor) (bank : Bank) (p : Fin 512) (n : Nat) : BitVec 32 :=
  d.bankBase bank + BitVec.ofNat 32 ((p.val - d.pageFirst.toNat) * d.pageSize.toNat + 32 * n)

/-- R115: the number of pairs of a copy, PAGE_SIZE / 32. -/
def Descriptor.pairs (d : Descriptor) : Nat := d.pageSize.toNat / 32

/-- R41: the three policies. -/
inductive Policy where
  | merge
  | stall
  | error
  deriving DecidableEq, Repr

/-- R181: the policy by its code. Code 3 names none, is refused at ENABLE (R17), and reads as MERGE here in states no
run reaches (log 14). -/
def Descriptor.policyOf (d : Descriptor) : Policy :=
  if d.policy = 1#2 then .stall else if d.policy = 2#2 then .error else .merge

/-! ## The pages of a window -/

/-- The descriptor of a window. -/
def State.desc (s : State) (w : Fin 8) : Descriptor := (s.window w).desc

/-- The pages of the run of a descriptor that stand in a state, in ascending index. -/
def State.pagesIn (s : State) (d : Descriptor) (st : PageState) : List (Fin 512) :=
  d.run.filter fun p => (s.page p).state == st

/-- R9: the count of pages of a window in a state: 0 while it is DISABLED. -/
def State.pageCount (s : State) (w : Fin 8) (st : PageState) : Nat :=
  if (s.window w).enable = .disabled then 0 else (s.pagesIn (s.desc w) st).length

/-- R10: the window a page belongs to: the one ENABLED or DRAINING in whose run it lies. -/
def State.ownerOf (s : State) (p : Fin 512) : Option (Fin 8) :=
  allWindows.find? fun w => (s.window w).enable != .disabled && (s.desc w).inRun p

/-- The owner of the page in flight; window 0 in states no run reaches, where it has none (log 14). -/
def State.owner (s : State) (p : Fin 512) : Fin 8 := (s.ownerOf p).getD 0

/-! ## Classification (R30) -/

/-- R50: the marker an access is for a window with this descriptor, were the window ENABLED. -/
def markerOf (x : Port) (a : Access) (d : Descriptor) : Option Marker :=
  if a.blen = 0#2 ∧ a.size = 2#2 then
    match x, a.write with
    | .p, true => if a.addr = d.cma then some .commit else none
    | .p, false => none
    | .c, true => none
    | .c, false =>
      if a.addr = d.lma then some .leaseOpen else if a.addr = d.lma + 4#32 then some .leaseClose else none
  else none

/-- R30: where an access falls. -/
inductive Place where
  | marker (w : Fin 8) (m : Marker)
  | view (w : Fin 8)
  | bankRegion (w : Fin 8) (bank : Bank)
  | plain
  deriving DecidableEq, Repr

/-- R30 item 1. -/
def State.markerPlace (s : State) (x : Port) (a : Access) : Option Place :=
  allWindows.findSome? fun w => if s.enabled w then (markerOf x a (s.desc w)).map (Place.marker w) else none

/-- R30 item 2. -/
def State.viewPlace (s : State) (a : Access) : Option Place :=
  allWindows.findSome? fun w =>
    if s.enabled w && (s.desc w).view.has a.addr.toNat then some (Place.view w) else none

/-- R30 item 3. Where Bank A is the view its region is classed by item 2. -/
def State.bankPlace (s : State) (a : Access) : Option Place :=
  allWindows.findSome? fun w =>
    if s.enabled w && ((s.desc w).bankRegion .a).has a.addr.toNat then some (Place.bankRegion w .a)
    else if s.enabled w && ((s.desc w).bankRegion .b).has a.addr.toNat then some (Place.bankRegion w .b)
    else none

/-- R30: the class of an access by the first item that applies. -/
def State.place (s : State) (x : Port) (a : Access) : Place :=
  match s.markerPlace x a with
  | some p => p
  | none =>
    match s.viewPlace a with
    | some p => p
    | none =>
      match s.bankPlace a with
      | some p => p
      | none => .plain

end Sys2Proof.Machine
end

