-- ==== Sys2Proof/Machine/Ports.lean ====
section
/-! DEFINITION. Ports: the port handlers (Chapter 2): the judgement of an access, holds, and the
acceptance of an access. -/

namespace Sys2Proof.Machine

/-! ## The judgement (R29) -/

/-- R29: the outcomes of a judgement. -/
inductive Judgement where
  /-- PENDING with a class and a resolved address. -/
  | go (r : Resolution)
  /-- HELD, with its reason, window and page. -/
  | hold (why : HoldReason) (w : Fin 8) (p : Fin 512)
  /-- Answered ERROR at once, with the record made. -/
  | refuse (e : Event)
  deriving DecidableEq, Repr

/-- R33: an access of the view of `w` at page `p`, resolved to a bank. -/
def State.served (s : State) (w : Fin 8) (p : Fin 512) (bank : Bank) (a : Access) : Judgement :=
  .go { cls := .view w p bank, addr := (s.desc w).bankAddr bank a.addr }

/-- R36: a producer write by the state of its page. A page UNUSED in the view of an ENABLED window is a state no run
reaches (R10); the write is then held for good (log 14). -/
def State.judgeWrite (s : State) (w : Fin 8) (p : Fin 512) (a : Access) : Judgement :=
  match (s.page p).state with
  | .synced => s.served w p (s.page p).bank.other a
  | .dirty => s.served w p (s.page p).bank.other a
  | .stale => .hold .demand w p
  | .copying => .hold .demand w p
  | .unused => .hold .demand w p
  | .broken => .refuse { kind := .pageBrokenWrite, window := some w, page := some p }

/-- R5: the window is sealed. -/
def State.isSealed (s : State) (w : Fin 8) : Bool := (s.window w).commit != .isOpen

/-- R41 to R44: a producer write into a view: by the policy while the window is sealed, then by the page. -/
def State.judgeProducerWrite (s : State) (w : Fin 8) (p : Fin 512) (a : Access) : Judgement :=
  if s.isSealed w then
    match (s.desc w).policyOf with
    | .merge => s.judgeWrite w p a
    | .stall => .hold .sealed w p
    | .error => .refuse { kind := .lateWrite, window := some w, detail := 0x02#8, page := some p }
  else s.judgeWrite w p a

/-- R34, R35, R36: an access of a view. -/
def State.judgeView (s : State) (x : Port) (w : Fin 8) (p : Fin 512) (a : Access) : Judgement :=
  match x, a.write with
  | .c, false => s.served w p (s.page p).bank a
  | .c, true => .refuse { kind := .ownership, window := some w, page := some p }
  | .p, false => s.served w p (if (s.page p).state = .dirty then (s.page p).bank.other else (s.page p).bank) a
  | .p, true => s.judgeProducerWrite w p a

/-- R29: the judgement of an access against the bridge as it stands. -/
def State.judge (s : State) (x : Port) (a : Access) : Judgement :=
  match s.place x a with
  | .marker w m => .go { cls := .marker w m, addr := a.addr }
  | .view w => s.judgeView x w ((s.desc w).pageAt a.addr) a
  | .bankRegion w bank =>
    if (s.desc w).guard then .refuse { kind := .guard, window := some w, detail := bank.code }
    else .go { cls := .bankRegion w bank, addr := a.addr }
  | .plain => .go { cls := .plain, addr := a.addr }

/-- R42: the window and page of a late write judged under MERGE whose window's merge-noted flag is clear. -/
def State.mergeToNote (s : State) (x : Port) (a : Access) : Option (Fin 8 × Fin 512) :=
  match x, a.write, s.place x a with
  | .p, true, .view w =>
    if s.isSealed w && (s.desc w).policyOf == .merge && !s.noted w then some (w, (s.desc w).pageAt a.addr) else none
  | _, _, _ => none

/-- R42: LATE_WRITE with detail MERGED is recorded once for an arming, and the flag is set. -/
def State.noteMerge (s : State) (x : Port) (a : Access) : State :=
  match s.mergeToNote x a with
  | some (w, p) =>
    (s.setNoted w true).record { kind := .lateWrite, window := some w, detail := 0x01#8, page := some p }
  | none => s

/-! ## Taking a judgement -/

/-- The hold count belongs to the P-port Handler (R45); it is 0 unless a write is HELD with reason SEALED. -/
def State.clearHold (s : State) (x : Port) : State :=
  match x with
  | .p => { s with holdCount := 0 }
  | .c => s

/-- R29, R39, R44: the handler takes its judgement. A SEALED hold that goes on keeps its hold count; a new one begins
at 0; a demand hold promotes its page (R39, R119). -/
def State.takeJudgement (s : State) (x : Port) (a : Access) : Judgement → State
  | .go r => (s.clearHold x).setPhase x (.pending a r)
  | .hold .demand w p => ((s.clearHold x).setPhase x (.held a .demand w p)).promote p
  | .hold .sealed w p =>
    let t := if s.sealedHold then s else s.clearHold x
    t.setPhase x (.held a .sealed w p)
  | .refuse e => ((s.clearHold x).refuseAccess x a).record e

/-- R29: the access is judged, its LATE_WRITE MERGED first (R42). -/
def State.judgeAccess (s : State) (x : Port) (a : Access) : State := (s.noteMerge x a).takeJudgement x a (s.judge x a)

/-- R29: a PENDING or HELD access of a port is judged anew. -/
def State.settle (s : State) (x : Port) : State :=
  match s.phaseOf x with
  | .idle => s
  | .pending a _ => s.judgeAccess x a
  | .held a _ _ _ => s.judgeAccess x a
  | .issued _ _ => s

/-- An access, if it is judged now, makes a record: it is answered (R34, R36, R38, R43) or noted (R42). -/
def State.makesRecord (s : State) (x : Port) (a : Access) : Bool :=
  (s.mergeToNote x a).isSome ||
    (match s.judge x a with
     | .refuse _ => true
     | .go _ => false
     | .hold _ _ _ => false)

/-- The waiting access of a port makes a record if it is judged now. -/
def State.recordsNow (s : State) (x : Port) : Bool :=
  match s.phaseOf x with
  | .idle => false
  | .pending a _ => s.makesRecord x a
  | .held a _ _ _ => s.makesRecord x a
  | .issued _ _ => false

/-- R29: at once after a change, both handlers judge their waiting accesses anew; a judgement that nothing has changed
for has no effect. Where both make a record, the order of their records is a free value (log 6). -/
def State.rejudge (s : State) : State :=
  if s.recordsNow .p && s.recordsNow .c then
    let t := { s with freeCount := s.freeCount + 1 }
    if Config.consumerJudgedFirst s.freeCount then (t.settle .c).settle .p else (t.settle .p).settle .c
  else (s.settle .p).settle .c

/-! ## The hold timeout (R45) -/

/-- R45: the hold times out: the write is answered ERROR, HOLD_TIMEOUT is recorded, and the count returns to 0. -/
def State.timeOut (s : State) (a : Access) (w : Fin 8) (p : Fin 512) : State :=
  ((s.clearHold .p).refuseAccess .p a).record { kind := .holdTimeout, window := some w, page := some p }

/-- R45: at a boundary that does not take the commit of its window, the hold times out: the count, raised by 1, is equal
to or above HOLDMAX. -/
def State.holdDue (s : State) : Bool := decide (s.holdMax.toNat ≤ s.holdCount + 1)

/-- R45: a boundary reaches the P-port Handler; `taken w` says whether it has taken the commit of window `w` (R93). -/
def State.holdBoundary (s : State) (taken : Fin 8 → Bool) : State :=
  match s.pPort.phase with
  | .held a .sealed w p =>
    if taken w then s else if s.holdDue then s.timeOut a w p else { s with holdCount := s.holdCount + 1 }
  | _ => s

/-! ## Acceptance -/

/-- R25, R26, R29: an idle handler accepts the access, tests its form and judges it. -/
def State.accept (s : State) (x : Port) (a : Access) : State :=
  if formOk a then s.judgeAccess x a
  else (s.refuseAccess x a).record { kind := .alignFault, detail := portCode x }

/-- R25: an access is presented at a port. A handler that holds an access accepts no other: the request presented is the
one held. -/
def State.present (s : State) (x : Port) (a : Access) : State :=
  match s.phaseOf x with
  | .idle => s.accept x a
  | _ => s

end Sys2Proof.Machine
end

