-- ==== Sys2Proof/Machine/Groups.lean ====
section
/-! DEFINITION. Groups: the Commit Controller (Chapters 3 and 5): markers, membership and readiness, the judgement of
a group at a boundary and at a lease close, the commit and its flip, and the hold timeout alone. -/

namespace Sys2Proof.Machine

/-! ## Membership and readiness -/

/-- R84: the window is a member of the group. -/
def State.isMember (s : State) (g : Fin 4) (w : Fin 8) : Bool :=
  s.enabled w && (s.desc w).group.toNat == g.val

/-- R84: the members of a group, in ascending number. -/
def State.members (s : State) (g : Fin 4) : List (Fin 8) := allWindows.filter (s.isMember g)

/-- R85: a commit of the group is the pending flip. -/
def State.flipPendingFor (s : State) (g : Fin 4) : Bool :=
  match s.pendingFlip with
  | some f => f.group == g
  | none => false

/-- R85: the group is ready. -/
def State.groupReady (s : State) (g : Fin 4) : Bool :=
  !(s.members g).isEmpty && (s.members g).all (fun w => (s.window w).commit == .armed) && !s.flipPendingFor g

/-- R88: the members whose bracket is OPEN. -/
def State.openMembers (s : State) (g : Fin 4) : List (Fin 8) :=
  (s.members g).filter fun w => (s.window w).bracket == .isOpen

/-- R86: the group becomes IDLE with count 0. -/
def State.groupIdle (s : State) (g : Fin 4) : State := s.setGroup g { s.group g with state := .idle, count := 0#4 }

/-! ## The flip (R101, R102) -/

/-- R14, R101: the entry of a DIRTY page at the flip. -/
def PageEntry.flipped (e : PageEntry) : PageEntry := { state := .stale, bank := e.bank.other, attempts := 0#2 }

/-- R101: the flip of one window of the set: its DIRTY pages change sides and join the tail of the Copy Queue, its
tag and frame are taken over, and it is OPEN. -/
def State.flipWindow (s : State) (w : Fin 8) : State :=
  let d := s.desc w
  let dirty := s.pagesIn d .dirty
  let t := s.mapPages fun p e => if d.inRun p && e.state == .dirty then e.flipped else e
  let t := { t with copyQueue := t.copyQueue ++ dirty }
  t.setWindow w { s.window w with commit := .isOpen, committedTag := (s.window w).armedTag,
                                  lastCommitFrame := s.timer.frame }

/-- R102: the count of a COMMIT record, saturating at 255. -/
def commitCount (n : Nat) : Byte := BitVec.ofNat 8 (min n 255)

/-- R102: the COMMIT record of a window, whose page count `n` was taken at the flip. -/
def State.recordCommit (s : State) (g : Fin 4) (origin : Origin) (w : Fin 8) (n : Nat) : State :=
  s.record { kind := .commit, window := some w, group := some g, detail := origin.code,
             tag := (s.window w).committedTag, phase := (s.window w).armPhase, count := commitCount n }

/-- R101, R102: the flip takes effect for every window of the set that is ENABLED, and COMMIT is then recorded for
each, both in ascending number. A flip of another group that is pending stays so. -/
def State.flip (s : State) (f : TakenCommit) : State :=
  let ws := f.set.filter s.enabled
  let t := ws.foldl State.flipWindow s
  ws.foldl (fun u w => u.recordCommit f.group f.origin w (s.pagesIn (s.desc w) .dirty).length) t

/-- R100: the access ISSUED on the M-port is a view-class access of either port into a window of the set. -/
def State.issuedInto (s : State) (set : List (Fin 8)) : Bool :=
  let inSet (ph : Phase) : Bool :=
    match ph with
    | .issued _ { cls := .view w _ _, .. } => set.contains w
    | _ => false
  inSet s.pPort.phase || inSet s.cPort.phase

/-- R100: a commit of the group is taken: its set is fixed, the group is IDLE, and the flip takes effect at once or
becomes the pending flip. -/
def State.takeCommit (s : State) (g : Fin 4) (origin : Origin) : State :=
  let set := (s.members g).filter fun w => (s.window w).commit == .armed
  let f : TakenCommit := { group := g, set := set, origin := origin }
  let t := s.groupIdle g
  if t.issuedInto set then { t with pendingFlip := some f } else t.flip f

/-! ## A boundary at the Commit Controller (R88) -/

/-- The outcomes of R88, in the order of its table. -/
inductive GroupOutcome where
  | nothing
  | endDeferral
  | skip
  | commit
  | defer
  | force
  deriving DecidableEq, Repr

/-- R88: the outcome for a group, on the state as the boundary arrived. -/
def State.groupOutcome (s : State) (g : Fin 4) : GroupOutcome :=
  if !s.groupReady g then
    match (s.group g).state with
    | .idle => .nothing
    | .deferred => .endDeferral
  else if s.freeze.latch then .skip
  else if (s.openMembers g).isEmpty then .commit
  else if (s.group g).count.toNat < (s.group g).limit.toNat then .defer
  else .force

/-- R90: the bracket of a window is revoked. -/
def State.revoke (s : State) (w : Fin 8) : State := s.setWindow w { s.window w with bracket := .revoked }

/-- R90: the member bitmap, window `w` at bit `w`. -/
def memberBitmap (ws : List (Fin 8)) : Byte := ws.foldl (fun b w => b ||| (1#8 <<< w.val)) 0#8

/-- R88 to R91: the outcome taken. -/
def State.applyOutcome (s : State) (g : Fin 4) : GroupOutcome → State
  | .nothing => s
  | .endDeferral => s.groupIdle g
  | .skip =>
    s.record { kind := .freezeSkip, group := some g, count := (s.group g).count.setWidth 8 }
  | .commit => s.takeCommit g .boundary
  | .defer =>
    let n := (s.group g).count + 1#4
    (s.setGroup g { s.group g with state := .deferred, count := n }).record
      { kind := .commitDeferred, group := some g, count := n.setWidth 8 }
  | .force =>
    let ws := s.openMembers g
    ((ws.foldl State.revoke s).record
      { kind := .commitForced, group := some g, detail := memberBitmap ws, count := (s.group g).count.setWidth 8 }
      ).takeCommit g .forced

/-- R92: a window armed late is promoted. -/
def Window.promoted (w : Window) : Window := if w.commit = .armedLate then { w with commit := .armed } else w

/-- R88, R92: the Commit Controller's part of a boundary: the groups in ascending number, then the promotion. -/
def State.judgeGroups (s : State) : State :=
  (allGroups.foldl (fun t g => t.applyOutcome g (s.groupOutcome g)) s).mapWindows Window.promoted

/-- R93: the boundary has taken the commit of the window, or the window is in the set of the pending flip. -/
def State.boundaryTakes (s : State) (w : Fin 8) : Bool :=
  let g : Fin 4 := Fin.ofNat 4 (s.desc w).group.toNat
  (s.enabled w && (s.groupOutcome g == .commit || s.groupOutcome g == .force)) ||
    (match s.pendingFlip with
     | some f => f.set.contains w
     | none => false)

/-- R80: a boundary delivered to the Commit Controller and then to the P-port Handler, and the judgements anew that
the changes call for (R29, R46). -/
def State.deliver (s : State) : State := (s.judgeGroups.holdBoundary s.boundaryTakes).rejudge

/-- R45, R93: the P-port Handler's part alone of a boundary at which the hold times out: the count, raised by 1, has
reached HOLDMAX and the window's commit is not taken. Elsewhere it is no event (log 2, 7). -/
def State.holdTimeout (s : State) : State :=
  match s.pPort.phase with
  | .held a .sealed w p => if !s.boundaryTakes w && s.holdDue then s.timeOut a w p else s
  | _ => s

/-! ## Lease closes (R94) -/

/-- R94: the judgement of a group at a lease close passed to the Commit Controller, the bracket closed. -/
def State.judgeClose (s : State) (g : Fin 4) : State :=
  match (s.group g).state with
  | .idle => s
  | .deferred =>
    if !s.groupReady g then s.groupIdle g
    else if !(s.openMembers g).isEmpty then s
    else if s.freeze.latch then s
    else s.takeCommit g .close

/-! ## Markers (Chapter 3) -/

/-- R53 to R55: a commit marker takes its effect at its grant: it arms an OPEN window, ARMED_LATE past the cutoff, or
re-arms an armed one. -/
def State.commitMarker (s : State) (w : Fin 8) (tag : Word) : State :=
  let x := s.window w
  match x.commit with
  | .isOpen =>
    if s.timer.late then
      ((s.setWindow w { x with commit := .armedLate, armedTag := tag, armPhase := s.timer.counter }).setNoted w
          false).record { kind := .markerLate, window := some w, tag := tag, phase := s.timer.counter }
    else (s.setWindow w { x with commit := .armed, armedTag := tag, armPhase := s.timer.counter }).setNoted w false
  | .armedLate => s.setWindow w { x with armedTag := tag, armPhase := s.timer.counter }
  | .armed => s.setWindow w { x with armedTag := tag, armPhase := s.timer.counter }

/-- R59, R61: a lease open. -/
def State.leaseOpen (s : State) (w : Fin 8) : State :=
  match (s.window w).bracket with
  | .closed => s.setWindow w { s.window w with bracket := .isOpen }
  | .revoked => s.setWindow w { s.window w with bracket := .isOpen }
  | .isOpen => s.record { kind := .leaseDouble, window := some w, detail := 0x01#8 }

/-- R60, R61: a lease close. -/
def State.leaseClose (s : State) (w : Fin 8) : State :=
  match (s.window w).bracket with
  | .isOpen =>
    (s.setWindow w { s.window w with bracket := .closed }).judgeClose (Fin.ofNat 4 (s.desc w).group.toNat)
  | .revoked => s.setWindow w { s.window w with bracket := .closed }
  | .closed => s.record { kind := .leaseDouble, window := some w, detail := 0x02#8 }

/-- R51: the effect of a marker at the grant of its access. The armed tag is the word presented with the write. -/
def State.takeMarker (s : State) (a : Access) (w : Fin 8) : Marker → State
  | .commit => s.commitMarker w (a.wdata.getD 0 0#32)
  | .leaseOpen => s.leaseOpen w
  | .leaseClose => s.leaseClose w

end Sys2Proof.Machine
end

