-- ==== Sys2Proof/Machine/Copy.lean ====
section
/-! DEFINITION. Copy: the Copy Engine (Chapter 6): the start of a copy, its bursts, its end, retries, BROKEN pages,
the end of a drain and WINDOW_READY. -/

namespace Sys2Proof.Machine

def State.setEngine (s : State) (e : Engine) : State := { s with engine := e }

/-- R113, R117, R122: the engine is IDLE with no page in flight; the pair buffer is discarded (log 18). -/
def State.engineIdle (s : State) : State := s.setEngine Engine.reset

/-- R15, R114: the entry of a page whose copy starts. -/
def PageEntry.started (e : PageEntry) : PageEntry := { e with state := .copying, attempts := e.attempts + 1#2 }

/-- R114: a copy starts with the page at the head of the Copy Queue. -/
def State.startCopy (s : State) : State :=
  match s.copyQueue with
  | [] => s
  | p :: rest =>
    { (s.setPage p (s.page p).started) with
      copyQueue := rest
      engine := { phase := .read, page := some p, pair := 0, issued := true, buffer := s.engine.buffer } }

/-- R115: the burst of the engine's phase, to the bank and at the address of its pair. -/
def State.engineBurst (s : State) : Access :=
  let p := s.engine.page.getD 0
  let d := s.desc (s.owner p)
  let bank := (s.page p).bank
  match s.engine.phase with
  | .write =>
    { addr := d.pairAddr bank.other p s.engine.pair, write := true, size := 2#2, blen := 3#2, wdata := s.engine.buffer }
  | .read => { addr := d.pairAddr bank p s.engine.pair, write := false, size := 2#2, blen := 3#2, wdata := [] }
  | .idle => { addr := d.pairAddr bank p s.engine.pair, write := false, size := 2#2, blen := 3#2, wdata := [] }

/-- R134: the engine's request stands. -/
def State.engineRequests (s : State) : Bool :=
  match s.engine.phase with
  | .idle => !s.copyQueue.isEmpty
  | .read => !s.engine.issued
  | .write => !s.engine.issued

/-- R139: a grant to the engine: in IDLE the start of a copy, else its present burst is issued. -/
def State.grantEngine (s : State) : State :=
  match s.engine.phase with
  | .idle => s.startCopy
  | .read => s.setEngine { s.engine with issued := true }
  | .write => s.setEngine { s.engine with issued := true }

/-- R8, R127: WINDOW_READY is due when the flag is set and no page of the window is STALE or COPYING. -/
def State.checkReady (s : State) (w : Fin 8) : State :=
  if (s.window w).readyPending && s.pageCount w .stale + s.pageCount w .copying == 0 then
    (s.setWindow w { s.window w with readyPending := false }).record { kind := .windowReady, window := some w }
  else s

/-- R21: a drain ends: the page is UNUSED, the window DISABLED, and WINDOW_DISABLED is recorded. -/
def State.endDrain (s : State) (w : Fin 8) (p : Fin 512) : State :=
  ((s.setPage p { s.page p with state := .unused, attempts := 0#2 }).setWindow w
      { s.window w with enable := .disabled }).record { kind := .windowDisabled, window := some w }

/-- R117: a copy ends well. -/
def State.copyEndsWell (s : State) (p : Fin 512) : State :=
  let w := s.owner p
  let t := s.engineIdle
  match (s.window w).enable with
  | .enabled => (t.setPage p { s.page p with state := .synced, attempts := 0#2 }).checkReady w
  | .draining => t.endDrain w p
  | .disabled => t

/-- R16, R122: the entry of the page of an ENABLED window after a failed attempt: STALE at the head of the queue with
COPY_RETRY, or BROKEN with PAGE_BROKEN after the third. -/
def State.attemptFailed (s : State) (w : Fin 8) (p : Fin 512) : State :=
  let e := s.page p
  if e.attempts = 3#2 then
    (s.setPage p { e with state := .broken }).record
      { kind := .pageBroken, window := some w, page := some p, count := 3#8 }
  else
    { (s.setPage p { e with state := .stale }) with copyQueue := p :: s.copyQueue }.record
      { kind := .copyRetry, window := some w, page := some p, count := e.attempts.setWidth 8 }

/-- R122, R123: an attempt ends at an ERROR response: MEMORY_ERROR first, then what the window's state gives. -/
def State.copyFails (s : State) (p : Fin 512) : State :=
  let w := s.owner p
  let t := s.engineIdle.record
    { kind := .memoryError, window := some w, detail := copyDetail, page := some p,
      count := (s.page p).attempts.setWidth 8 }
  match (s.window w).enable with
  | .enabled => (t.attemptFailed w p).checkReady w
  | .draining => t.endDrain w p
  | .disabled => t

/-- R115: the engine moves on an OKAY response. -/
def State.copyOkay (s : State) (p : Fin 512) (rdata : List Word) : State :=
  let e := s.engine
  match e.phase with
  | .idle => s
  | .read => s.setEngine { e with phase := .write, issued := false, buffer := readBeats s.engineBurst rdata }
  | .write =>
    if e.pair + 1 < (s.desc (s.owner p)).pairs then
      s.setEngine { e with phase := .read, pair := e.pair + 1, issued := false }
    else s.copyEndsWell p

/-- R115, R122, R132: the response to a copy burst. An engine that is IDLE discards it. -/
def State.copyResponse (s : State) (r : BusResp) (rdata : List Word) : State :=
  match s.engine.page with
  | none => s
  | some p =>
    match r with
    | .okay => s.copyOkay p rdata
    | .error => s.copyFails p

end Sys2Proof.Machine
end

