-- ==== Sys2Proof/Machine/Arbiter.lean ====
section
/-! DEFINITION. Arbiter: the Memory Arbiter (Chapter 7): the grant decision, what a grant hands over, where a due grant
stands among the other events, and the routing of a response. -/

namespace Sys2Proof.Machine

/-! ## The decision (R136) -/

/-- R134: a port handler's request stands while its access is PENDING. -/
def State.portRequests (s : State) (x : Port) : Bool :=
  match s.phaseOf x with
  | .pending _ _ => true
  | _ => false

/-- R136: rank 3, the producer and the background Copy Engine: where both stand, the one the pointer does not name. -/
def rankThree (producer copy : Bool) (pointer : Pointer) : Option Requester :=
  if producer && copy then
    match pointer with
    | .producer => some .copy
    | .copy => some .producer
  else if producer then some .producer
  else if copy then some .copy
  else none

/-- R136: the requester the decision chooses among those whose requests stand. -/
def chooseGrant (consumer producer copy demand : Bool) (streak : Nat) (pointer : Pointer) : Option Requester :=
  let limited := Config.streakLimit ≤ streak ∧ (producer || copy)
  if consumer ∧ ¬ limited then some .consumer
  else if copy && demand then some .copy
  else rankThree producer copy pointer

/-- R136: the grant decision on the state: none while the M-port is BUSY or no request stands. -/
def State.decision (s : State) : Option Requester :=
  match s.mport with
  | .busy _ _ => none
  | .free =>
    chooseGrant (s.portRequests .c) (s.portRequests .p) s.engineRequests s.demandPage.isSome s.streak s.pointer

/-! ## The grant (R137 to R139) -/

/-- R137, R138: the streak count and the pointer at a grant. -/
def State.noteGrant (s : State) : Requester → State
  | .consumer => { s with streak := min (s.streak + 1) Config.streakLimit }
  | .producer => { s with streak := 0, pointer := .producer }
  | .copy => { s with streak := 0, pointer := .copy }

/-- R133: the M-port is BUSY with the holder's access. -/
def State.issue (s : State) (q : Requester) (a : Access) : State := { s with mport := .busy q a, freed := false }

/-- R51: a marker-class access takes its effect at its grant. -/
def State.grantEffect (s : State) (a : Access) (r : Resolution) : State :=
  match r.cls with
  | .marker w m => s.takeMarker a w m
  | .view _ _ _ => s
  | .bankRegion _ _ => s
  | .plain => s

/-- R139: a grant to a port handler: its access is ISSUED at its resolved address. -/
def State.grantPort (s : State) (x : Port) (q : Requester) : State :=
  match s.phaseOf x with
  | .pending a r => ((s.setPhase x (.issued a r)).issue q { a with addr := r.addr }).grantEffect a r
  | _ => s

/-- R139: a grant to a requester. -/
def State.grantTo (s : State) : Requester → State
  | .consumer => (s.noteGrant .consumer).grantPort .c .consumer
  | .producer => (s.noteGrant .producer).grantPort .p .producer
  | .copy =>
    let t := (s.noteGrant .copy).grantEngine
    t.issue .copy t.engineBurst

/-- R136: the grant that is due is taken, with the judgements anew its effects call for (R29). Where the M-port is BUSY
or no request stands, none is due. -/
def State.arbitrated (s : State) : State :=
  match s.decision with
  | none => s
  | some q => (s.grantTo q).rejudge

/-- The state an event other than a grant is taken in. R136: a request that appeared on a FREE M-port was granted at its
appearance, so that grant is taken first. R129, R141: the decision at a response that freed the M-port can come before the
event or after it, so the event is taken first and a GRANT before it has the other order (log 3). DESIGN CHOICE: the event can be the next
access of the port that the response answered (log 23). -/
def State.settled (s : State) : State :=
  match s.decision with
  | none => { s with freed := false }
  | some _ => if s.freed then s else s.arbitrated

/-- One event other than a grant or a response. -/
def State.event (s : State) (f : State → State) : Host.Outcome State Fault Refusal := .next (f s.settled)

/-! ## The response (R140) -/

/-- R47: the MEMORY_ERROR of a port access, by its class at grant. -/
def memoryErrorOf (x : Port) : AccessClass → Option Event
  | .view w p _ => some { kind := .memoryError, window := some w, detail := portCode x, page := some p }
  | .marker w _ => some { kind := .memoryError, window := some w, detail := portCode x }
  | .bankRegion _ _ => none
  | .plain => none

/-- R13: a producer write into a view that ends OKAY makes a SYNCED or DIRTY page DIRTY. -/
def State.markDirty (s : State) (p : Fin 512) : State :=
  match (s.page p).state with
  | .synced => s.setPage p { s.page p with state := .dirty }
  | .dirty => s.setPage p { s.page p with state := .dirty }
  | .unused => s
  | .stale => s
  | .copying => s
  | .broken => s

/-- R13: the effect of the ending of a port access on the Page Map. -/
def State.endWrite (s : State) (x : Port) (a : Access) (cls : AccessClass) : State :=
  match x, a.write, cls with
  | .p, true, .view _ p _ => s.markDirty p
  | _, _, _ => s

/-- R27, R47, R140: the ending of a port access. -/
def State.endAccess (s : State) (x : Port) (r : BusResp) (rdata : List Word) : State :=
  match s.phaseOf x with
  | .issued a res =>
    let t := s.respond x r (readBeats a rdata)
    match r with
    | .okay => t.endWrite x a res.cls
    | .error =>
      match memoryErrorOf x res.cls with
      | some e => t.record e
      | none => t
  | _ => s

/-- R103: the pending flip takes effect at the ending of the port access it waits for; a copy burst is none (R100). -/
def State.flipAfter (s : State) (q : Requester) : State :=
  match q, s.pendingFlip with
  | .consumer, some f => { s with pendingFlip := none }.flip f
  | .producer, some f => { s with pendingFlip := none }.flip f
  | .copy, some _ => s
  | _, none => s

/-- R140: the holder's step at the response. -/
def State.holderStep (s : State) (q : Requester) (r : BusResp) (rdata : List Word) : State :=
  match q with
  | .consumer => s.endAccess .c r rdata
  | .producer => s.endAccess .p r rdata
  | .copy => s.copyResponse r rdata

/-- R140: the decision that a freed M-port allows falls due where a request stands. -/
def State.openDecision (s : State) : State := { s with freed := s.decision.isSome }

/-- R140: the memory's response. The M-port is FREE, the holder takes its step, a pending flip that waited takes effect,
and accesses are judged anew (R29); then a decision is due where a request stands. The order of the holder's MEMORY_ERROR before the COMMIT records of a flip that
waited for it is DEDUCED (log 21). A response on a FREE M-port belongs to no access (log 2). -/
def State.response (s : State) (r : BusResp) (rdata : List Word) : State :=
  match s.mport with
  | .free => s
  | .busy q _ => (({ s with mport := .free }.holderStep q r rdata).flipAfter q).rejudge.openDecision

end Sys2Proof.Machine
end

