-- ==== Sys2Proof/Machine/Bus.lean ====
section
/-! DEFINITION. Bus: the commands of the two ports, of the Memory Arbiter and of the memory. -/

namespace Sys2Proof.Machine

/-- ACCESS_ACCEPTED (R25). -/
def execAccessAccepted (x : Port) (a : Access) (s : State) : Host.Outcome State Fault Refusal :=
  s.event fun t => t.present x a

/-- GRANT (R136): the grant that is due; where none is due, no grant is made (log 2). -/
def execGrant (s : State) : Host.Outcome State Fault Refusal := .next s.arbitrated

/-- MEMORY_RESPONSE (R140). A response answers an access that has been issued, so a grant that is due is taken first
(log 2, 3). -/
def execMemoryResponse (r : BusResp) (rdata : List Word) (s : State) : Host.Outcome State Fault Refusal :=
  .next (s.arbitrated.response r rdata)

/-- HOLD_TIMEOUT (R45). A boundary makes the same comparison in its own step, so a sender of boundaries sends no
HOLD_TIMEOUT beside them (log 7). -/
def execHoldTimeout (s : State) : Host.Outcome State Fault Refusal := s.event State.holdTimeout

end Sys2Proof.Machine
end

