-- ==== Sys2Proof/Machine/Timer.lean ====
section
/-! DEFINITION. Timer: the Frame Timer (Chapter 4): ticks, boundaries, FSYNC, the strobe, one BCLK period, and the
freeze line's filter, with the commands of the timer and of the two filtered inputs. -/

namespace Sys2Proof.Machine

def State.setTimer (s : State) (t : Timer) : State := { s with timer := t }

/-! ## Boundaries -/

/-- R69, R79 to R81: the timer's own part of a boundary: counter and prescaler 0, the frame number, the pending copy
installed, the sync state, the FSTB pulse. -/
def Timer.begin (t : Timer) (sync : SyncState) : Timer :=
  { t with counter := 0#24, prescale := 0, frame := t.frame + 1#16, fper := t.nextFper, fcut := t.nextFcut,
           pendFper := none, pendFcut := none, sync := sync, strobe := Config.strobeLength }

/-- R79: FRAME is recorded when the new frame number is a multiple of FNDIV. -/
def State.recordFrame (s : State) : State := if s.timer.frameDue then s.record { kind := .frame } else s

/-- R80: a boundary: the timer's part with its records, SYNC_LOCKED or SYNC_LOST first and FRAME after it, and then the
boundary delivered. -/
def State.boundaryWith (s : State) (sync : SyncState) (mark : Option EventKind) : State :=
  let t := s.setTimer (s.timer.begin sync)
  let t :=
    match mark with
    | some k => t.record { kind := k }
    | none => t
  t.recordFrame.deliver

/-- R73, R78: a boundary that leaves the sync state. -/
def State.plainBoundary (s : State) : State := s.boundaryWith s.timer.sync none

/-- R75: the end of a period in EXTERNAL with no accepted edge. -/
def State.synthesized (s : State) : State :=
  match s.timer.sync with
  | .seeking => s.boundaryWith .seeking none
  | .locked => s.boundaryWith .lost (some .syncLost)
  | .lost => s.boundaryWith .lost none

/-- R74, R75: an accepted rising edge of FSYNC at the timer. It acts in EXTERNAL alone (R73, R77). -/
def State.timerEdge (s : State) : State :=
  match s.timer.mode with
  | .off => s
  | .internal => s
  | .external =>
    if s.timer.counter.toNat < s.timer.fmin.toNat then
      s.record { kind := .syncEarly, phase := s.timer.counter }
    else
      match s.timer.sync with
      | .seeking => s.boundaryWith .locked (some .syncLocked)
      | .locked => s.boundaryWith .locked none
      | .lost => s.boundaryWith .locked (some .syncLocked)

/-- R66, R67: one tick, the prescaler starting again from 0. A tick that would bring the counter to the FPER in force
ends the period (R73, R75). -/
def State.tickOnce (s : State) : State :=
  match s.timer.mode with
  | .off => s
  | .internal =>
    if s.timer.periodDue then s.plainBoundary
    else s.setTimer { s.timer with counter := s.timer.counter + 1#24, prescale := 0 }
  | .external =>
    if s.timer.periodDue then s.synthesized
    else s.setTimer { s.timer with counter := s.timer.counter + 1#24, prescale := 0 }

/-! ## The filtered inputs -/

/-- R77: the FSYNC filter accepts a level; a rise is delivered to the timer. -/
def State.acceptFsync (s : State) (level : Bool) : State :=
  let t := { s with fsync := { pin := level, accepted := level, run := 0 } }
  if level && !s.fsync.accepted then t.timerEdge else t

/-- R145: an accepted rise of FRZ at the Freeze Unit. -/
def State.lineRise (s : State) : State :=
  let t := { s with freeze := { s.freeze with level := true, line := true, latch := true } }
  if s.freeze.line then t else t.record { kind := .frozen, detail := 0x01#8 }

/-- R147: an accepted fall of FRZ at the Freeze Unit. -/
def State.lineFall (s : State) : State := { s with freeze := { s.freeze with level := false } }

/-- R77, R145, R147: the FRZ filter accepts a level, and the change is delivered to the Freeze Unit. -/
def State.acceptFrz (s : State) (level : Bool) : State :=
  let t := { s with frz := { pin := level, accepted := level, run := 0 } }
  if level == s.frz.accepted then t else if level then t.lineRise else t.lineFall

/-! ## One BCLK period -/

/-- R77: the next sample completes a run: the level is accepted with it. -/
def Filter.due (f : Filter) : Bool := f.pin != f.accepted && decide (Config.filterRun ≤ f.run)

/-- R77: one sample that completes no run. -/
def Filter.sample (f : Filter) : Filter :=
  if f.pin = f.accepted then { f with run := 0 } else if f.due then f else { f with run := f.run + 1 }

/-- R66: one BCLK period at the prescaler. -/
def State.prescale (s : State) : State :=
  match s.timer.mode with
  | .off => s
  | .internal =>
    if s.timer.fpre.toNat ≤ s.timer.prescale + 1 then s.tickOnce
    else s.setTimer { s.timer with prescale := s.timer.prescale + 1 }
  | .external =>
    if s.timer.fpre.toNat ≤ s.timer.prescale + 1 then s.tickOnce
    else s.setTimer { s.timer with prescale := s.timer.prescale + 1 }

/-- The events of one BCLK period. -/
inductive ClockEvent where
  | frz
  | fsync
  | prescaler
  deriving DecidableEq, Repr

/-- The six orders of the three events. -/
def clockOrder (k : Fin 6) : List ClockEvent :=
  if k = 0 then [.frz, .fsync, .prescaler]
  else if k = 1 then [.frz, .prescaler, .fsync]
  else if k = 2 then [.fsync, .frz, .prescaler]
  else if k = 3 then [.fsync, .prescaler, .frz]
  else if k = 4 then [.prescaler, .frz, .fsync]
  else [.prescaler, .fsync, .frz]

/-- The event is one of this BCLK period: an input's where this sample completes its filter's run (R77). -/
def State.clockHas (s : State) : ClockEvent → Bool
  | .frz => s.frz.due
  | .fsync => s.fsync.due
  | .prescaler => true

/-- One event of a BCLK period, an input's being the acceptance of its pin's level, with a grant due taken before it
(R136). -/
def State.clockEvent (s : State) (e : ClockEvent) : State :=
  let t := s.arbitrated
  match e with
  | .frz => t.acceptFrz t.frz.pin
  | .fsync => t.acceptFsync t.fsync.pin
  | .prescaler => t.prescale

/-- Section 10.8: the inputs take the levels the board drives in this BCLK period; where the board queue is empty they
keep their levels (log 4). -/
def State.drive (s : State) : State :=
  match s.board with
  | [] => s
  | l :: rest =>
    { s with board := rest, fsync := { s.fsync with pin := l.fsync }, frz := { s.frz with pin := l.frz } }.samplePort l

/-- One BCLK period on the levels now driven (log 4): the FSTB pulse runs (R81), the two filters each sample their own
pin (R77) and the prescaler counts (R66). Where a filter accepts a level, the order of the period's events is a free
value (R76, R150; log 5). -/
def State.period (s : State) : State :=
  let t := { s with timer := { s.timer with strobe := s.timer.strobe - 1 }, fsync := s.fsync.sample,
                    frz := s.frz.sample }
  if s.fsync.due || s.frz.due then
    ((clockOrder (Config.bclkOrder s.freeCount)).filter s.clockHas).foldl State.clockEvent
      { t with freeCount := s.freeCount + 1 }
  else t.prescale

/-- One BCLK period with nothing waiting and no grant due. -/
def State.bclk (s : State) : State := s.settled.drive.period

/-- R73: PERIOD_END: in INTERNAL, where a tick would bring the counter to FPER. -/
def State.internalEnd (s : State) : State :=
  match s.timer.mode with
  | .off => s
  | .internal => if s.timer.periodDue then s.plainBoundary else s
  | .external => s

/-- R75: SYNTHESIZED_BOUNDARY: in EXTERNAL, where a tick would bring the counter to FPER. -/
def State.externalEnd (s : State) : State :=
  match s.timer.mode with
  | .off => s
  | .internal => s
  | .external => if s.timer.periodDue then s.synthesized else s

/-! ## Commands -/

/-- TICK (R66, R67). In OFF the prescaler delivers none. -/
def execTick (s : State) : Host.Outcome State Fault Refusal := s.event State.tickOnce

/-- PERIOD_END (R73). -/
def execPeriodEnd (s : State) : Host.Outcome State Fault Refusal := s.event State.internalEnd

/-- SYNTHESIZED_BOUNDARY (R75). -/
def execSynthesizedBoundary (s : State) : Host.Outcome State Fault Refusal := s.event State.externalEnd

/-- FSYNC_EDGE (R74, R77): the filter accepts FSYNC high. -/
def execFsyncEdge (s : State) : Host.Outcome State Fault Refusal := s.event fun t => t.acceptFsync true

/-- FSYNC_FALL (R77): the filter accepts FSYNC low, with no effect on the timer. -/
def execFsyncFall (s : State) : Host.Outcome State Fault Refusal := s.event fun t => t.acceptFsync false

/-- FSTB_PULSE_END (R81): FSTB falls. -/
def execFstbPulseEnd (s : State) : Host.Outcome State Fault Refusal :=
  s.event fun t => t.setTimer { t.timer with strobe := 0 }

/-- FRZ_RISE (R145). -/
def execFrzRise (s : State) : Host.Outcome State Fault Refusal := s.event fun t => t.acceptFrz true

/-- FRZ_FALL (R147). -/
def execFrzFall (s : State) : Host.Outcome State Fault Refusal := s.event fun t => t.acceptFrz false

end Sys2Proof.Machine
end

