-- ==== Sys2Proof/Machine/Control.lean ====
section
/-! DEFINITION. Control: the actions that concern the whole bridge (BOUNDARY, FREEZE, RELEASE, ENGINE_RESET) and the
hard reset. -/

namespace Sys2Proof.Machine

/-- BOUNDARY (R78). -/
def State.boundaryAction (s : State) : State × Status := (s.plainBoundary, .ok)

/-- FREEZE (R146). -/
def State.freezeAction (s : State) : State × Status :=
  let t := { s with freeze := { s.freeze with command := true, latch := true } }
  if s.freeze.command then (s, .ok) else (t.record { kind := .frozen, detail := 0x02#8 }, .ok)

/-- RELEASE (R148, R177): a latch that is clear answers OK with no effect. -/
def State.releaseAction (s : State) : State × Status :=
  if s.freeze.latch then
    if s.freeze.level then (s, .refusedLine)
    else
      ({ s with freeze := { s.freeze with latch := false, line := false, command := false } }.record
        { kind := .released }, .ok)
  else (s, .ok)

/-! ## The engine reset (R178) -/

/-- R24: the live state of a window after an engine reset; its descriptor is kept. -/
def Window.engineReset (x : Window) : Window := { Window.reset with desc := x.desc }

/-- R108: a group after an engine reset; DEFLIM is kept. -/
def Group.engineReset (x : Group) : Group := { Group.reset with limit := x.limit }

/-- R83: the Frame Timer after an engine reset: the values in force and a running FSTB pulse are kept. -/
def Timer.engineReset (t : Timer) : Timer :=
  { t with mode := .off, counter := 0#24, prescale := 0, frame := 0#16, sync := .seeking, pendFper := none,
           pendFcut := none }

/-- R48: a HELD write is answered ERROR, with no record. -/
def State.dropHeld (s : State) : State :=
  match s.pPort.phase with
  | .held a _ _ _ => s.refuseAccess .p a
  | _ => s

/-- R178: the engine reset at every block: R24, R48, R83, R108, R132, R142, R153, R167. The PENDING accesses are judged
anew with every window DISABLED (R48). R142: on a FREE M-port the decision among them is then taken at once. -/
def State.engineReset (s : State) : State :=
  let t := s.dropHeld
  { t with
    windows := vecMap Window.engineReset t.windows
    pages := Vector.replicate 512 PageEntry.reset
    groups := vecMap Group.engineReset t.groups
    pendingFlip := none
    holdCount := 0
    mergeNoted := Vector.replicate 8 false
    copyQueue := []
    engine := Engine.reset
    freed := false
    streak := 0
    timer := t.timer.engineReset
    events := []
    overrun := false }.rejudge

/-- ENGINE_RESET (R178). -/
def State.engineResetAction (s : State) : State × Status := (s.engineReset, .ok)

/-! ## The hard reset -/

/-- R77: a filter after a hard reset, the level of its pin as the board drives it (log 11). -/
def Filter.hardReset (f : Filter) : Filter := { Filter.reset with pin := f.pin }

/-- R179: the management port after a hard reset: no transaction, MSO undriven. Where MCSn is low the port ignores its
lines until MCSn has risen (log 11). -/
def ManagementPort.hardReset (m : ManagementPort) : ManagementPort :=
  { framing := match m.framing with
      | .ready => .ready
      | .opened => .ignoring
      | .answered => .ignoring
      | .ignoring => .ignoring
    out := []
    msck := m.msck }

/-- R23, R49, R82, R107, R131, R143, R152, R166, R179: every block at its hard-reset state. The inputs and
the levels to come are the board's, and the queue of waiting commands and the free-value counter are the model's own:
they stay (log 11). -/
def State.hardReset (s : State) : State :=
  { State.reset with
    fsync := s.fsync.hardReset
    frz := s.frz.hardReset
    mgmt := s.mgmt.hardReset
    board := s.board
    freeCount := s.freeCount
    pending := s.pending }

/-! ## Commands -/

/-- BOUNDARY (R78); the argument byte is ignored (R177). -/
def execBoundary (_arg : Byte) (s : State) : Host.Outcome State Fault Refusal :=
  s.event fun t => t.transactStatus State.boundaryAction

/-- FREEZE (R146). -/
def execFreeze (_arg : Byte) (s : State) : Host.Outcome State Fault Refusal :=
  s.event fun t => t.transactStatus State.freezeAction

/-- RELEASE (R148). -/
def execRelease (_arg : Byte) (s : State) : Host.Outcome State Fault Refusal :=
  s.event fun t => t.transactStatus State.releaseAction

/-- ENGINE_RESET (R178). -/
def execEngineReset (_arg : Byte) (s : State) : Host.Outcome State Fault Refusal :=
  s.event fun t => t.transactStatus State.engineResetAction

/-- HARD_RESET (R23). -/
def execHardReset (s : State) : Host.Outcome State Fault Refusal := s.event State.hardReset

end Sys2Proof.Machine
end

