-- ==== Sys2Proof/Machine/Registers.lean ====
section
/-! DEFINITION. Registers: the register file (R173 to R175, R181): the value each register presents, the writes and
their judgement, POP_EVENT, and the framing commands of the management port. -/

namespace Sys2Proof.Machine

/-! ## Values read (R173, R181) -/

/-- A one-bit field at a bit position. -/
def bitAt (flag : Bool) (n : Nat) : Word := if flag then 1#32 <<< n else 0#32

/-- A number placed at a bit position. -/
def fieldAt (v n : Nat) : Word := BitVec.ofNat 32 v <<< n

def TimerMode.code : TimerMode → Nat
  | .off => 0
  | .internal => 1
  | .external => 2

def SyncState.code : SyncState → Nat
  | .seeking => 0
  | .locked => 1
  | .lost => 2

def EnableState.code : EnableState → Nat
  | .disabled => 0
  | .enabled => 1
  | .draining => 2

def CommitState.code : CommitState → Nat
  | .isOpen => 0
  | .armedLate => 1
  | .armed => 2

def Bracket.code : Bracket → Nat
  | .closed => 0
  | .isOpen => 1
  | .revoked => 2

def PageState.code : PageState → Nat
  | .unused => 0
  | .synced => 1
  | .dirty => 2
  | .stale => 3
  | .copying => 4
  | .broken => 5

/-- DEVSTAT (R181). -/
def State.devstatWord (s : State) : Word :=
  bitAt s.freeze.latch 0 ||| bitAt s.freeze.line 1 ||| bitAt s.freeze.command 2 ||| bitAt s.freeze.level 3 |||
    fieldAt s.timer.sync.code 4 ||| bitAt s.overrun 8 ||| fieldAt s.events.length 16

/-- DEVCTL (R181). -/
def State.devctlWord (s : State) : Word := bitAt s.irqEnable 0 ||| fieldAt s.holdMax.toNat 8

/-- FMODE (R181). -/
def State.fmodeWord (s : State) : Word :=
  fieldAt s.timer.mode.code 0 ||| bitAt s.timer.pendFper.isSome 4 ||| bitAt s.timer.pendFcut.isSome 5

/-- DEVQUEUE (R181). -/
def State.devqueueWord (s : State) : Word :=
  fieldAt s.copyQueue.length 0 ||| bitAt s.engine.page.isSome 15 ||| fieldAt ((s.engine.page.map (·.val)).getD 0) 16

/-- Group status (R181). -/
def Group.statusWord (g : Group) : Word := bitAt (g.state == .deferred) 0 ||| fieldAt g.count.toNat 8

/-- Descriptor word `k` (R181). -/
def Descriptor.word (d : Descriptor) (k : Fin 8) : Word :=
  match k with
  | 0 => d.viewBase
  | 1 => d.bankABase
  | 2 => d.bankBBase
  | 3 => fieldAt d.pageSize.toNat 0
  | 4 => fieldAt d.pageFirst.toNat 0 ||| fieldAt d.pageCount.toNat 16
  | 5 => fieldAt d.group.toNat 0 ||| fieldAt d.policy.toNat 8 ||| bitAt d.guard 16
  | 6 => d.cma
  | 7 => d.lma

/-- Window status word `k`, at 0x20 + 4 k (R181). -/
def State.windowWord (s : State) (w : Fin 8) (k : Fin 8) : Word :=
  let x := s.window w
  match k with
  | 0 => fieldAt x.enable.code 0 ||| fieldAt x.commit.code 4 ||| fieldAt x.bracket.code 8 ||| bitAt x.readyPending 12
  | 1 => x.armedTag
  | 2 => fieldAt x.armPhase.toNat 0
  | 3 => x.committedTag
  | 4 => fieldAt x.lastCommitFrame.toNat 0
  | 5 => fieldAt (s.pageCount w .synced) 0 ||| fieldAt (s.pageCount w .dirty) 16
  | 6 => fieldAt (s.pageCount w .stale) 0 ||| fieldAt (s.pageCount w .copying) 16
  | 7 => fieldAt (s.pageCount w .broken) 0

/-- Page Map view (R181). -/
def PageEntry.word (e : PageEntry) : Word :=
  fieldAt e.state.code 0 ||| bitAt (e.bank == .b) 4 ||| fieldAt e.attempts.toNat 8

/-- R173: the value a register presents. -/
def State.registerValue (s : State) : RegName → Word
  | .deviceId => Config.deviceId
  | .devstat => s.devstatWord
  | .devctl => s.devctlWord
  | .evmask => s.evmask
  | .fmode => s.fmodeWord
  | .fpre => fieldAt s.timer.fpre.toNat 0
  | .fper => fieldAt s.timer.nextFper.toNat 0
  | .fcut => fieldAt s.timer.nextFcut.toNat 0
  | .fmin => fieldAt s.timer.fmin.toNat 0
  | .fndiv => fieldAt s.timer.fndiv.toNat 0
  | .counter => fieldAt s.timer.counter.toNat 0
  | .frameNumber => fieldAt s.timer.frame.toNat 0
  | .devqueue => s.devqueueWord
  | .groupControl g => fieldAt (s.group g).limit.toNat 0
  | .groupStatus g => (s.group g).statusWord
  | .descriptor w k => (s.desc w).word k
  | .windowStatus w k => s.windowWord w k
  | .pageView i => (s.page i).word

/-- R173: the bytes READ_REG returns: OK and the value, or BAD_COMMAND and zeros. -/
def State.readRegister (s : State) (number : BitVec 16) : List Byte :=
  match registerNamed number with
  | some r => Status.ok.code :: bytesOf32 (s.registerValue r)
  | none => Status.badCommand.code :: bytesOf32 0#32

/-! ## Writes (R174, R175) -/

/-- R181: a descriptor word's fields take the bits of their own width. -/
def Descriptor.write (d : Descriptor) (k : Fin 8) (v : Word) : Descriptor :=
  match k with
  | 0 => { d with viewBase := v }
  | 1 => { d with bankABase := v }
  | 2 => { d with bankBBase := v }
  | 3 => { d with pageSize := v.extractLsb' 0 10 }
  | 4 => { d with pageFirst := v.extractLsb' 0 9, pageCount := v.extractLsb' 16 10 }
  | 5 => { d with group := v.extractLsb' 0 2, policy := v.extractLsb' 8 2, guard := v.getLsbD 16 }
  | 6 => { d with cma := v }
  | 7 => { d with lma := v }

/-- R3: a descriptor write is taken while the window is DISABLED. -/
def State.writeDescriptor (s : State) (w k : Fin 8) (v : Word) : State × Status :=
  match (s.window w).enable with
  | .disabled => (s.setWindow w { s.window w with desc := (s.desc w).write k v }, .ok)
  | .enabled => (s, .refusedState)
  | .draining => (s, .refusedState)

/-- R164, R175: a 1 in the OVERRUN position clears OVERRUN; every other position is ignored. -/
def State.writeDevstat (s : State) (v : Word) : State × Status :=
  ({ s with overrun := s.overrun && !v.getLsbD 8 }, .ok)

/-- R175: IRQEN and HOLDMAX, where HOLDMAX is 1 to 7. -/
def State.writeDevctl (s : State) (v : Word) : State × Status :=
  if v.extractLsb' 8 3 = 0#3 then (s, .refusedConfig)
  else ({ s with irqEnable := v.getLsbD 0, holdMax := v.extractLsb' 8 3 }, .ok)

/-- R161: every enable is replaced; positions that name no kind are stored as 0. -/
def State.writeEvmask (s : State) (v : Word) : State × Status := ({ s with evmask := v &&& kindPositions }, .ok)

/-- R72: a mode is taken: counter and prescaler 0, SEEKING, no boundary; OFF installs the pending copy (R71). -/
def Timer.setMode (t : Timer) (m : TimerMode) : Timer :=
  let u := { t with mode := m, counter := 0#24, prescale := 0, sync := .seeking }
  match m with
  | .off => { u with fper := t.nextFper, fcut := t.nextFcut, pendFper := none, pendFcut := none }
  | .internal => u
  | .external => u

/-- R72, R175: the mode field of FMODE. -/
def State.writeFmode (s : State) (v : Word) : State × Status :=
  let m := v.extractLsb' 0 2
  if m = 0#2 then ({ s with timer := s.timer.setMode .off }, .ok)
  else if m = 1#2 then ({ s with timer := s.timer.setMode .internal }, .ok)
  else if m = 2#2 then ({ s with timer := s.timer.setMode .external }, .ok)
  else (s, .refusedConfig)

/-- R66: 1, 4, 16 or 64; the prescaler's count restarts. -/
def State.writeFpre (s : State) (v : Word) : State × Status :=
  if [1#32, 4#32, 16#32, 64#32].contains v then
    ({ s with timer := { s.timer with fpre := v.setWidth 7, prescale := 0 } }, .ok)
  else (s, .refusedConfig)

/-- R68: the test of an FPER. -/
def Timer.fperOk (t : Timer) (v : Word) : Bool :=
  decide (16 ≤ v.toNat) && decide (v.toNat ≤ 16777215) &&
    (t.nextFcut == 0#24 || decide (t.nextFcut.toNat < v.toNat)) && decide (t.fmin.toNat < v.toNat)

/-- R68: FPER goes into force in OFF and into the pending copy while the timer runs. -/
def State.writeFper (s : State) (v : Word) : State × Status :=
  if s.timer.fperOk v then
    match s.timer.mode with
    | .off => ({ s with timer := { s.timer with fper := v.setWidth 24 } }, .ok)
    | .internal => ({ s with timer := { s.timer with pendFper := some (v.setWidth 24) } }, .ok)
    | .external => ({ s with timer := { s.timer with pendFper := some (v.setWidth 24) } }, .ok)
  else (s, .refusedConfig)

/-- R68: the test of an FCUT. -/
def Timer.fcutOk (t : Timer) (v : Word) : Bool := v == 0#32 || decide (v.toNat < t.nextFper.toNat)

/-- R68: FCUT. -/
def State.writeFcut (s : State) (v : Word) : State × Status :=
  if s.timer.fcutOk v then
    match s.timer.mode with
    | .off => ({ s with timer := { s.timer with fcut := v.setWidth 24 } }, .ok)
    | .internal => ({ s with timer := { s.timer with pendFcut := some (v.setWidth 24) } }, .ok)
    | .external => ({ s with timer := { s.timer with pendFcut := some (v.setWidth 24) } }, .ok)
  else (s, .refusedConfig)

/-- R70: FMIN, below both the FPER in force and the FPER that will apply. -/
def State.writeFmin (s : State) (v : Word) : State × Status :=
  if v.toNat < s.timer.fper.toNat ∧ v.toNat < s.timer.nextFper.toNat then
    ({ s with timer := { s.timer with fmin := v.setWidth 24 } }, .ok)
  else (s, .refusedConfig)

/-- R71: FNDIV, 1, 2, 4 or 8. -/
def State.writeFndiv (s : State) (v : Word) : State × Status :=
  if [1#32, 2#32, 4#32, 8#32].contains v then
    ({ s with timer := { s.timer with fndiv := v.setWidth 4 } }, .ok)
  else (s, .refusedConfig)

/-- R87: a deferral count above the new limit is lowered to it; the count of an IDLE group is 0 and stays so. -/
def Group.setLimit (x : Group) (n : BitVec 4) : Group :=
  { x with limit := n, count := if n.toNat < x.count.toNat then n else x.count }

/-- R87: DEFLIM, 0 to 15. -/
def State.writeDeflim (s : State) (g : Fin 4) (v : Word) : State × Status :=
  if v.toNat ≤ 15 then (s.setGroup g ((s.group g).setLimit (v.setWidth 4)), .ok) else (s, .refusedConfig)

/-- R174: a WRITE_REG of any register number. -/
def State.writeRegister (s : State) (number : BitVec 16) (v : Word) : State × Status :=
  match registerNamed number with
  | none => (s, .badCommand)
  | some .deviceId => (s, .badCommand)
  | some .counter => (s, .badCommand)
  | some .frameNumber => (s, .badCommand)
  | some .devqueue => (s, .badCommand)
  | some (.groupStatus _) => (s, .badCommand)
  | some (.windowStatus _ _) => (s, .badCommand)
  | some (.pageView _) => (s, .badCommand)
  | some .devstat => s.writeDevstat v
  | some .devctl => s.writeDevctl v
  | some .evmask => s.writeEvmask v
  | some .fmode => s.writeFmode v
  | some .fpre => s.writeFpre v
  | some .fper => s.writeFper v
  | some .fcut => s.writeFcut v
  | some .fmin => s.writeFmin v
  | some .fndiv => s.writeFndiv v
  | some (.groupControl g) => s.writeDeflim g v
  | some (.descriptor w k) => s.writeDescriptor w k v

/-! ## Pops (R162, R176) -/

/-- R162: the record shifted out of an empty queue. -/
def State.noneRecord (s : State) : Event := { kind := .none, frame := s.timer.frame }

/-- R162: the head record leaves the queue and its bytes follow OK. -/
def State.pop (s : State) : State × List Byte :=
  match s.events with
  | [] => (s, Status.ok.code :: s.noneRecord.bytes)
  | e :: rest => ({ s with events := rest }, Status.ok.code :: e.bytes)

/-! ## Commands -/

/-- READ_REG (R173). -/
def execReadReg (number : BitVec 16) (s : State) : Host.Outcome State Fault Refusal :=
  s.event fun u => u.transact fun t => (t, t.readRegister number)

/-- WRITE_REG (R174). Its row is that of a register with no behaviour of its own; a number that names another is judged
by that register's rule, as R174 lays down for every number. -/
def execWriteReg (number : BitVec 16) (v : Word) (s : State) : Host.Outcome State Fault Refusal :=
  s.event fun u => u.transactStatus fun t => t.writeRegister number v

/-- DESCRIPTOR_WRITE (R3). -/
def execDescriptorWrite (w k : Fin 8) (v : Word) (s : State) : Host.Outcome State Fault Refusal :=
  s.event fun u => u.transactStatus fun t => t.writeDescriptor w k v

/-- DEVSTAT_WRITE (R164). -/
def execDevstatWrite (v : Word) (s : State) : Host.Outcome State Fault Refusal :=
  s.event fun u => u.transactStatus fun t => t.writeDevstat v

/-- DEVCTL_WRITE (R175). -/
def execDevctlWrite (v : Word) (s : State) : Host.Outcome State Fault Refusal :=
  s.event fun u => u.transactStatus fun t => t.writeDevctl v

/-- EVMASK_WRITE (R161). -/
def execEvmaskWrite (v : Word) (s : State) : Host.Outcome State Fault Refusal :=
  s.event fun u => u.transactStatus fun t => t.writeEvmask v

/-- FMODE_WRITE (R72). -/
def execFmodeWrite (v : Word) (s : State) : Host.Outcome State Fault Refusal :=
  s.event fun u => u.transactStatus fun t => t.writeFmode v

/-- FPRE_WRITE (R66). -/
def execFpreWrite (v : Word) (s : State) : Host.Outcome State Fault Refusal :=
  s.event fun u => u.transactStatus fun t => t.writeFpre v

/-- FPER_WRITE (R68). -/
def execFperWrite (v : Word) (s : State) : Host.Outcome State Fault Refusal :=
  s.event fun u => u.transactStatus fun t => t.writeFper v

/-- FCUT_WRITE (R68). -/
def execFcutWrite (v : Word) (s : State) : Host.Outcome State Fault Refusal :=
  s.event fun u => u.transactStatus fun t => t.writeFcut v

/-- FMIN_WRITE (R70). -/
def execFminWrite (v : Word) (s : State) : Host.Outcome State Fault Refusal :=
  s.event fun u => u.transactStatus fun t => t.writeFmin v

/-- FNDIV_WRITE (R71). -/
def execFndivWrite (v : Word) (s : State) : Host.Outcome State Fault Refusal :=
  s.event fun u => u.transactStatus fun t => t.writeFndiv v

/-- DEFLIM_WRITE (R87). -/
def execDeflimWrite (g : Fin 4) (v : Word) (s : State) : Host.Outcome State Fault Refusal :=
  s.event fun u => u.transactStatus fun t => t.writeDeflim g v

/-- POP_EVENT (R162, R176): its execution point is the end of its status byte, so that byte 1 of the answer follows. -/
def execPopEvent (s : State) : Host.Outcome State Fault Refusal := s.event fun t => t.transactAt 1 State.pop

/-- BAD_COMMAND (R170): answered, with nothing changed. A byte that names a command is not this event (log 2). -/
def execBadCommand (code : Byte) (s : State) : Host.Outcome State Fault Refusal :=
  s.event fun u => if commandBytes.contains code then u else u.transactStatus fun t => (t, .badCommand)

/-- UNKNOWN_ACTION (R177): answered BAD_COMMAND, with nothing changed. A code that names an action is not this event
(log 2). -/
def execUnknownAction (code _arg : Byte) (s : State) : Host.Outcome State Fault Refusal :=
  s.event fun u => if actionCodes.contains code then u else u.transactStatus fun t => (t, .badCommand)

/-- TRANSACTION_CUT_SHORT (R169): MCSn rises before the execution point: the bytes so far are discarded, MSO is released
and nothing in the bridge changes. A port that ignored the bytes has seen MCSn rise with it (R168, R179; log 10). -/
def execTransactionCutShort (_received : List Byte) (s : State) : Host.Outcome State Fault Refusal :=
  s.event fun t => { t with mgmt := t.mgmt.idle }

/-- MCSN_RISING_EDGE (R168): the transaction ends, MSO is released with the bytes not clocked out lost, and the port
is ready for the next falling edge; after a hard reset with MCSn low it stops ignoring the lines (R179). -/
def execMcsnRisingEdge (s : State) : Host.Outcome State Fault Refusal :=
  s.event fun t => { t with mgmt := t.mgmt.idle }

end Sys2Proof.Machine
end

