-- ==== Sys2Proof/Machine/Windows.lean ====
section
/-! DEFINITION. Windows: the window actions of the management port (Chapters 1 and 5): ENABLE, DISABLE, RESYNC,
DISARM. -/

namespace Sys2Proof.Machine

/-! ## The tests of ENABLE (R17) -/

/-- R17: the descriptors of the windows other than `w` that are ENABLED or DRAINING. -/
def State.others (s : State) (w : Fin 8) : List Descriptor :=
  (allWindows.filter fun v => v != w && (s.window v).enable != .disabled).map s.desc

/-- The view and both bank regions of a window. -/
def Descriptor.regions (d : Descriptor) : List Region := [d.view, d.bankRegion .a, d.bankRegion .b]

/-- Condition 1. -/
def Descriptor.pageSizeOk (d : Descriptor) : Bool := [64#10, 128#10, 256#10, 512#10].contains d.pageSize

/-- Condition 2. -/
def Descriptor.runOk (d : Descriptor) : Bool :=
  decide (1 ≤ d.pageCount.toNat) && decide (d.pageFirst.toNat + d.pageCount.toNat ≤ 512)

/-- Condition 3. -/
def Descriptor.basesOk (d : Descriptor) : Bool :=
  d.regions.all fun r => r.base % d.pageSize.toNat == 0 && decide (r.base + r.size ≤ 2 ^ 32)

/-- Condition 4. -/
def Descriptor.policyOk (d : Descriptor) : Bool := d.policy != 3#2

/-- Condition 5: the runs share no entry. -/
def Descriptor.runApart (d e : Descriptor) : Bool :=
  decide (d.pageFirst.toNat + d.pageCount.toNat ≤ e.pageFirst.toNat) ||
    decide (e.pageFirst.toNat + e.pageCount.toNat ≤ d.pageFirst.toNat)

/-- Condition 6: the view overlaps no view or bank region of the other. -/
def Descriptor.viewApart (d e : Descriptor) : Bool := e.regions.all fun r => !d.view.overlaps r

/-- Condition 7. -/
def Descriptor.banksApart (d : Descriptor) : Bool := !(d.bankRegion .a).overlaps (d.bankRegion .b)

/-- Condition 8. -/
def Descriptor.bankViewOk (d : Descriptor) : Bool :=
  !(d.bankRegion .b).overlaps d.view && (d.bankABase == d.viewBase || !(d.bankRegion .a).overlaps d.view)

/-- Condition 9: neither bank region overlaps the view or a bank region of the other. -/
def Descriptor.bankApart (d e : Descriptor) : Bool :=
  e.regions.all fun r => !(d.bankRegion .a).overlaps r && !(d.bankRegion .b).overlaps r

/-- Condition 10. -/
def Descriptor.markersOk (d : Descriptor) : Bool := d.cma.toNat % 4 == 0 && d.lma.toNat % 8 == 0

/-- Condition 11: no marker word overlaps the view or a bank region of the window or of the other. -/
def Descriptor.markersClear (d e : Descriptor) : Bool :=
  d.markerWords.all fun m => e.regions.all fun r => !m.overlaps r

/-- Condition 12: no marker word is the same word as a marker word of the other. -/
def Descriptor.markersApart (d e : Descriptor) : Bool :=
  d.markerWords.all fun m => e.markerWords.all fun n => m.base != n.base

/-- R17: the conditions on the descriptor alone (1 to 4, 7, 8, 10 and 11 for the window itself). -/
def Descriptor.usable (d : Descriptor) : Bool :=
  d.pageSizeOk && d.runOk && d.basesOk && d.policyOk && d.banksApart && d.bankViewOk && d.markersOk && d.markersClear d

/-- R17: the conditions against one of the others (5, 6, 9, 11, 12). -/
def Descriptor.clearOf (d e : Descriptor) : Bool :=
  d.runApart e && d.viewApart e && d.bankApart e && d.markersClear e && d.markersApart e

/-- R17: every condition holds for window `w`. -/
def State.enableOk (s : State) (w : Fin 8) : Bool :=
  (s.desc w).usable && (s.others w).all (s.desc w).clearOf

/-! ## The actions -/

/-- R18: the live state of a window put into service. -/
def Window.inService (x : Window) : Window :=
  { x with enable := .enabled, commit := .isOpen, armedTag := 0#32, armPhase := 0#24, committedTag := 0#32,
           lastCommitFrame := 0#16, bracket := .closed, readyPending := true }

/-- R18: the window is put into service: every page of its run STALE, Bank A, queued at the tail in ascending index. -/
def State.putInService (s : State) (w : Fin 8) : State :=
  let d := s.desc w
  let t := s.mapPages fun p e => if d.inRun p then { state := .stale, bank := .a, attempts := 0#2 } else e
  { t.setWindow w (s.window w).inService with copyQueue := s.copyQueue ++ d.run }

/-- ENABLE(w) (R17, R18). -/
def State.enableWindow (s : State) (w : Fin 8) : State × Status :=
  match (s.window w).enable with
  | .enabled => (s, .refusedState)
  | .draining => (s, .refusedState)
  | .disabled => if s.enableOk w then ((s.putInService w).rejudge, .ok) else (s, .refusedConfig)

/-- R19: a page of the run of `w` is in flight at the Copy Engine. -/
def State.inFlight (s : State) (w : Fin 8) : Bool :=
  match s.engine.page with
  | some p => (s.desc w).inRun p
  | none => false

/-- R20: an entry of a run taken out of service, but for the page in flight. -/
def PageEntry.freed (e : PageEntry) : PageEntry := { e with state := .unused, attempts := 0#2 }

/-- R103: the window leaves the set of the pending flip. -/
def TakenCommit.without (f : TakenCommit) (w : Fin 8) : TakenCommit := { f with set := f.set.filter (· ≠ w) }

/-- R19, R20: what DISABLE changes at once, the enable state becoming `next`. -/
def State.leaveService (s : State) (w : Fin 8) (next : EnableState) : State :=
  let d := s.desc w
  let x := s.window w
  let t := s.mapPages fun p e => if d.inRun p && s.engine.page != some p then e.freed else e
  { t.setWindow w { x with enable := next, commit := .isOpen, bracket := .closed, readyPending := false } with
    copyQueue := s.copyQueue.filter fun p => !d.inRun p
    pendingFlip := s.pendingFlip.map (·.without w) }

/-- DISABLE(w) (R19, R20). DESIGN CHOICE (log 20): where the DISABLE makes a handler judge a waiting access anew and
record, WINDOW_DISABLED comes before the handler's record; the manual orders neither (R155). -/
def State.disableWindow (s : State) (w : Fin 8) : State × Status :=
  match (s.window w).enable with
  | .disabled => (s, .ok)
  | .draining => (s, .busy)
  | .enabled =>
    if s.inFlight w then ((s.leaveService w .draining).rejudge, .ok)
    else (((s.leaveService w .disabled).record { kind := .windowDisabled, window := some w }).rejudge, .ok)

/-- R22: the BROKEN pages of the window return to the tail of the Copy Queue; the flag is set if there is one. -/
def State.returnBroken (s : State) (w : Fin 8) : State :=
  let d := s.desc w
  let broken := s.pagesIn d .broken
  let t := s.mapPages fun p e => if d.inRun p && e.state == .broken then { e with state := .stale, attempts := 0#2 } else e
  let x := s.window w
  { t.setWindow w { x with readyPending := x.readyPending || !broken.isEmpty } with
    copyQueue := s.copyQueue ++ broken }

/-- RESYNC(w) (R22). -/
def State.resyncWindow (s : State) (w : Fin 8) : State × Status :=
  match (s.window w).enable with
  | .disabled => (s, .refusedState)
  | .draining => (s, .refusedState)
  | .enabled => ((s.returnBroken w).rejudge, .ok)

/-- R98: the window stops being sealed, and a DEFERRED group of it becomes IDLE. -/
def State.disarmed (s : State) (w : Fin 8) : State :=
  let g : Fin 4 := Fin.ofNat 4 (s.desc w).group.toNat
  let t := s.setWindow w { s.window w with commit := .isOpen }
  match (t.group g).state with
  | .idle => t
  | .deferred => t.groupIdle g

/-- DISARM(w) (R98). -/
def State.disarmWindow (s : State) (w : Fin 8) : State × Status :=
  match (s.window w).enable with
  | .disabled => (s, .refusedState)
  | .draining => (s, .refusedState)
  | .enabled => if s.isSealed w then ((s.disarmed w).rejudge, .ok) else (s, .ok)

/-- R177: a window action names its window by the argument byte; an argument above 0x07 is BAD_COMMAND. -/
def State.windowAction (s : State) (arg : Byte) (act : State → Fin 8 → State × Status) : State × Status :=
  if arg.toNat < 8 then act s (Fin.ofNat 8 arg.toNat) else (s, .badCommand)

/-! ## Commands -/

/-- ENABLE (R17, R177). -/
def execEnable (arg : Byte) (s : State) : Host.Outcome State Fault Refusal :=
  s.event fun u => u.transactStatus fun t => t.windowAction arg State.enableWindow

/-- DISABLE (R19, R177). -/
def execDisable (arg : Byte) (s : State) : Host.Outcome State Fault Refusal :=
  s.event fun u => u.transactStatus fun t => t.windowAction arg State.disableWindow

/-- DISARM (R98, R177). -/
def execDisarm (arg : Byte) (s : State) : Host.Outcome State Fault Refusal :=
  s.event fun u => u.transactStatus fun t => t.windowAction arg State.disarmWindow

/-- RESYNC (R22, R177). -/
def execResync (arg : Byte) (s : State) : Host.Outcome State Fault Refusal :=
  s.event fun u => u.transactStatus fun t => t.windowAction arg State.resyncWindow

end Sys2Proof.Machine
end

