-- ==== Sys2Proof/Machine/Dispatch.lean ====
section
/-! DEFINITION. Dispatch: one arm per command, each a direct call of its meaning. -/

namespace Sys2Proof.Machine

def exec (i : Instr) (s : State) : Host.Outcome State Fault Refusal :=
  match i with
  | .accessAccepted x a => Sys2Proof.Machine.execAccessAccepted x a s
  | .grant => Sys2Proof.Machine.execGrant s
  | .memoryResponse r rdata => Sys2Proof.Machine.execMemoryResponse r rdata s
  | .tick => Sys2Proof.Machine.execTick s
  | .periodEnd => Sys2Proof.Machine.execPeriodEnd s
  | .synthesizedBoundary => Sys2Proof.Machine.execSynthesizedBoundary s
  | .fsyncEdge => Sys2Proof.Machine.execFsyncEdge s
  | .holdTimeout => Sys2Proof.Machine.execHoldTimeout s
  | .fstbPulseEnd => Sys2Proof.Machine.execFstbPulseEnd s
  | .frzRise => Sys2Proof.Machine.execFrzRise s
  | .frzFall => Sys2Proof.Machine.execFrzFall s
  | .hardReset => Sys2Proof.Machine.execHardReset s
  | .readReg n => Sys2Proof.Machine.execReadReg n s
  | .writeReg n v => Sys2Proof.Machine.execWriteReg n v s
  | .descriptorWrite w k v => Sys2Proof.Machine.execDescriptorWrite w k v s
  | .devstatWrite v => Sys2Proof.Machine.execDevstatWrite v s
  | .devctlWrite v => Sys2Proof.Machine.execDevctlWrite v s
  | .evmaskWrite v => Sys2Proof.Machine.execEvmaskWrite v s
  | .fmodeWrite v => Sys2Proof.Machine.execFmodeWrite v s
  | .fpreWrite v => Sys2Proof.Machine.execFpreWrite v s
  | .fperWrite v => Sys2Proof.Machine.execFperWrite v s
  | .fcutWrite v => Sys2Proof.Machine.execFcutWrite v s
  | .fminWrite v => Sys2Proof.Machine.execFminWrite v s
  | .fndivWrite v => Sys2Proof.Machine.execFndivWrite v s
  | .deflimWrite g v => Sys2Proof.Machine.execDeflimWrite g v s
  | .popEvent => Sys2Proof.Machine.execPopEvent s
  | .badCommand code => Sys2Proof.Machine.execBadCommand code s
  | .unknownAction code arg => Sys2Proof.Machine.execUnknownAction code arg s
  | .transactionCutShort received => Sys2Proof.Machine.execTransactionCutShort received s
  | .enable arg => Sys2Proof.Machine.execEnable arg s
  | .disable arg => Sys2Proof.Machine.execDisable arg s
  | .disarm arg => Sys2Proof.Machine.execDisarm arg s
  | .resync arg => Sys2Proof.Machine.execResync arg s
  | .boundary arg => Sys2Proof.Machine.execBoundary arg s
  | .freeze arg => Sys2Proof.Machine.execFreeze arg s
  | .release arg => Sys2Proof.Machine.execRelease arg s
  | .engineReset arg => Sys2Proof.Machine.execEngineReset arg s
  | .fsyncFall => Sys2Proof.Machine.execFsyncFall s
  | .mcsnRisingEdge => Sys2Proof.Machine.execMcsnRisingEdge s

end Sys2Proof.Machine
end

