-- ==== Sys2Proof/Safety.lean ====
section
/-! DEFINITION. Safety: the laws of the manual that hold of every state of a run, in the terms claims use, and the
order in which the part itself would take its steps. -/

namespace Sys2Proof.Machine

/-- R154, R161: at most 32 records; the mask holds enables of named kinds only; no NONE record is kept. -/
structure State.EventsOk (s : State) : Prop where
  bounded : s.events.length ≤ 32
  mask : s.evmask &&& kindPositions = s.evmask
  named : ∀ e ∈ s.events, e.kind ≠ .none

/-- R144: the latch is set while a flag is set; the line level is the filter's accepted level, and while it is high the
LINE flag is set. -/
structure State.FreezeOk (s : State) : Prop where
  latch : s.freeze.latch = (s.freeze.line || s.freeze.command)
  level : s.freeze.level = s.frz.accepted
  line : s.freeze.level = true → s.freeze.line = true

/-- R86: the deferral count never exceeds DEFLIM and is 0 whenever the group is IDLE. -/
def State.GroupsOk (s : State) : Prop :=
  ∀ g, (s.group g).count.toNat ≤ (s.group g).limit.toNat ∧ ((s.group g).state = .idle → (s.group g).count = 0#4)

/-- R66 to R71: the Frame Timer. -/
structure Timer.Ok (t : Timer) : Prop where
  counter : t.counter.toNat < t.fper.toNat
  period : 16 ≤ t.fper.toNat ∧ 16 ≤ t.nextFper.toNat
  cutoff : t.fcut = 0#24 ∨ t.fcut.toNat < t.fper.toNat
  nextCutoff : t.nextFcut = 0#24 ∨ t.nextFcut.toNat < t.nextFper.toNat
  minimum : t.fmin.toNat < t.fper.toNat ∧ t.fmin.toNat < t.nextFper.toNat
  divisor : t.fpre ∈ [1#7, 4#7, 16#7, 64#7]
  divider : t.fndiv ∈ [1#4, 2#4, 4#4, 8#4]
  prescaler : t.prescale < t.fpre.toNat
  off : t.mode = .off → t.counter = 0#24 ∧ t.prescale = 0 ∧ t.pendFper = none ∧ t.pendFcut = none
  strobe : t.strobe ≤ 4

/-- R25, R28, R45: no response stands while a handler holds an access; the C-port Handler never holds for a reason of
its own; the hold count is 0 unless a write is HELD with reason SEALED; HOLDMAX is 1 to 7. -/
structure State.PortsOk (s : State) : Prop where
  noResponse : ∀ x, s.phaseOf x ≠ .idle → (s.port x).resp = none
  consumer : ∀ a why w p, s.cPort.phase ≠ .held a why w p
  count : s.sealedHold = false → s.holdCount = 0
  holdMax : s.holdMax ≠ 0#3

/-- R133, R135: the M-port is BUSY with a port handler exactly while that handler's access is ISSUED, and presents that
access at its resolved address; an issued copy burst holds it too; a decision at a freeing is
open on a FREE M-port alone; the streak count runs to 8. -/
structure State.ArbiterOk (s : State) : Prop where
  consumer : ∀ b, s.mport = .busy .consumer b ↔ ∃ a r, s.cPort.phase = .issued a r ∧ b = { a with addr := r.addr }
  producer : ∀ b, s.mport = .busy .producer b ↔ ∃ a r, s.pPort.phase = .issued a r ∧ b = { a with addr := r.addr }
  copy : s.engine.issued = true → ∃ b, s.mport = .busy .copy b
  freed : s.freed = true → s.mport = .free
  streak : s.streak ≤ 8

/-- R10: the window is ENABLED or DRAINING. -/
def State.inService (s : State) (w : Fin 8) : Prop := (s.window w).enable ≠ .disabled

/-- R4, R5, R7, R8, R10, R19: the windows: out of service a window is OPEN, CLOSED and reports nothing; in service its
descriptor is usable and its run is apart from those of the others; a DRAINING window has a page in flight. -/
structure State.WindowsOk (s : State) : Prop where
  quiet : ∀ w, s.enabled w = false →
    (s.window w).commit = .isOpen ∧ (s.window w).bracket = .closed ∧ (s.window w).readyPending = false
  usable : ∀ w, s.inService w → (s.desc w).usable = true
  apart : ∀ w v, w ≠ v → s.inService w → s.inService v → (s.desc w).runApart (s.desc v) = true
  draining : ∀ w, (s.window w).enable = .draining → ∃ p, s.engine.page = some p ∧ (s.desc w).inRun p = true

/-- R10, R11, R15, R110, R113: the pages: an entry in no run in service is UNUSED; a page of an ENABLED window is not;
a DRAINING window keeps only its page in flight; a page is queued exactly when it is STALE, and once; it is COPYING
exactly when it is the page in flight; the engine is IDLE exactly when it has none; the attempt counts. -/
structure State.PagesOk (s : State) : Prop where
  owned : ∀ p, (s.page p).state ≠ .unused → ∃ w, s.inService w ∧ (s.desc w).inRun p = true
  used : ∀ w p, s.enabled w = true → (s.desc w).inRun p = true → (s.page p).state ≠ .unused
  drained : ∀ w p, (s.window w).enable = .draining → (s.desc w).inRun p = true → s.engine.page ≠ some p →
    (s.page p).state = .unused
  queued : ∀ p, p ∈ s.copyQueue ↔ (s.page p).state = .stale
  once : s.copyQueue.Nodup
  inFlight : ∀ p, (s.page p).state = .copying ↔ s.engine.page = some p
  engineIdle : s.engine.phase = .idle ↔ s.engine.page = none
  notIssued : s.engine.phase = .idle → s.engine.issued = false ∧ s.engine.pair = 0
  attempts : ∀ p, match (s.page p).state with
    | .unused => (s.page p).attempts = 0#2
    | .synced => (s.page p).attempts = 0#2
    | .dirty => (s.page p).attempts = 0#2
    | .stale => (s.page p).attempts ≠ 3#2
    | .copying => (s.page p).attempts ≠ 0#2
    | .broken => (s.page p).attempts = 3#2

/-- R29: a waiting access stands as its judgement against the present state gives it, its LATE_WRITE MERGED noted. -/
def State.JudgedOk (s : State) : Prop :=
  ∀ x, match s.phaseOf x with
    | .idle => True
    | .issued _ _ => True
    | .pending a r => s.judge x a = .go r ∧ s.mergeToNote x a = none
    | .held a why w p => s.judge x a = .hold why w p ∧ s.mergeToNote x a = none

/-- R119: while a demand indication stands and names a STALE page, that page is at the head of the Copy Queue. -/
def State.DemandOk (s : State) : Prop :=
  ∀ p, s.demandPage = some p → (s.page p).state = .stale → s.copyQueue.head? = some p

/-- R100, R101, R103: a pending flip waits for a port access that is ISSUED and its set is that of one group, the windows
in ascending number. -/
def State.FlipOk (s : State) : Prop :=
  ∀ f, s.pendingFlip = some f →
    ((∃ a r, s.pPort.phase = .issued a r) ∨ (∃ a r, s.cPort.phase = .issued a r)) ∧
    (s.group f.group).state = .idle ∧ (∀ w ∈ f.set, s.isMember f.group w = true) ∧ f.set.Pairwise (· < ·)

/-- R168, R179: the management port: fewer than eight bits of a byte are outstanding; bytes are kept while a transaction
is open alone, and an answer after the execution point alone; a port that leaves MSO undriven holds no bit. -/
structure ManagementPort.Ok (m : ManagementPort) : Prop where
  bit : m.bit < 8
  received : m.framing ≠ .opened → m.received = []
  returned : m.framing ≠ .answered → m.out = [] ∧ m.index = 0
  undriven : m.framing = .ready ∨ m.framing = .ignoring → m.bit = 0 ∧ m.mso = false

/-- Every law above. -/
structure State.Inv (s : State) : Prop where
  events : s.EventsOk
  freeze : s.FreezeOk
  groups : s.GroupsOk
  timer : s.timer.Ok
  ports : s.PortsOk
  arbiter : s.ArbiterOk
  windows : s.WindowsOk
  pages : s.PagesOk
  judged : s.JudgedOk
  demand : s.DemandOk
  flip : s.FlipOk
  mgmt : s.mgmt.Ok

/-! ## Words for statements -/

/-- No grant is taken before the next event's own effect: none is due, or the one due is the decision at the response that
freed the M-port, which the event can come before (R129, R141; log 3). -/
abbrev State.Settled (s : State) : Prop := s.freed = s.decision.isSome

/-- R168: the management port stands ready for a transaction: MCSn is high, or it has opened one. -/
def State.portReady (s : State) : Prop := s.mgmt.framing = .ready ∨ s.mgmt.framing = .opened

/-- R169: the state with a transaction executed at a rising edge of MSCK that returns these bytes, its status byte
next. -/
def State.answer (s : State) (out : List Byte) : State :=
  { s with mgmt := { framing := .answered, out := out, msck := true } }

/-- R176: the same for a pop, whose execution point is the end of its status byte OK: byte 1 is next. -/
def State.answerPop (s : State) (out : List Byte) : State :=
  { s with mgmt := { framing := .answered, out := out, index := 1, mso := true, msck := true } }

/-- R28, R29: the handler holds an access that waits: PENDING or HELD. -/
def State.waits (s : State) (x : Port) (a : Access) : Prop :=
  (∃ r, s.phaseOf x = .pending a r) ∨ ∃ why w p, s.phaseOf x = .held a why w p

/-- R50: the access is the marker `m` of a window with this descriptor, were the window ENABLED. -/
def isMarkerOf (a : Access) (x : Port) (d : Descriptor) (m : Marker) : Prop :=
  a.blen = 0#2 ∧ a.size = 2#2 ∧
    match m with
    | .commit => x = .p ∧ a.write = true ∧ a.addr = d.cma
    | .leaseOpen => x = .c ∧ a.write = false ∧ a.addr = d.lma
    | .leaseClose => x = .c ∧ a.write = false ∧ a.addr = d.lma + 4#32

/-- R2, R9: the pages of a window's run that stand in a state, in ascending index. -/
def State.runPages (s : State) (w : Fin 8) (st : PageState) : List (Fin 512) :=
  (List.finRange 512).filter fun p => (s.desc w).inRun p && (s.page p).state == st

/-- R93: the boundary takes the commit of window `w`, or `w` is in the set of the pending flip. -/
def State.TakenAtBoundary (s : State) (w : Fin 8) : Prop :=
  (∃ g, s.isMember g w = true ∧ (s.groupOutcome g = .commit ∨ s.groupOutcome g = .force)) ∨
    ∃ f, s.pendingFlip = some f ∧ w ∈ f.set

/-- R100: the access ISSUED on the M-port is of the view of a member of the group: its flip waits. -/
def State.FlipWaits (s : State) (g : Fin 4) : Prop :=
  ∃ x a r w p bank, s.phaseOf x = .issued a r ∧ r.cls = .view w p bank ∧ s.isMember g w = true

/-- Two ranges share an address. -/
def Region.meets (r t : Region) : Prop := ∃ x, r.has x = true ∧ t.has x = true

/-- R17: the twelve conditions of ENABLE, each in the manual's own terms. -/
structure State.EnableConditions (s : State) (w : Fin 8) : Prop where
  pageSize : (s.desc w).pageSize ∈ [64#10, 128#10, 256#10, 512#10]
  pageCount : 1 ≤ (s.desc w).pageCount.toNat ∧ (s.desc w).pageCount.toNat ≤ 512 ∧
    (s.desc w).pageFirst.toNat + (s.desc w).pageCount.toNat ≤ 512
  bases : ∀ r ∈ [(s.desc w).view, (s.desc w).bankRegion .a, (s.desc w).bankRegion .b],
    r.base % (s.desc w).pageSize.toNat = 0 ∧ r.base + r.size ≤ 2 ^ 32
  policy : (s.desc w).policy ≠ 3#2
  runs : ∀ v, v ≠ w → s.inService v → ∀ p, ¬((s.desc w).inRun p = true ∧ (s.desc v).inRun p = true)
  views : ∀ v, v ≠ w → s.inService v → ∀ r ∈ [(s.desc v).view, (s.desc v).bankRegion .a, (s.desc v).bankRegion .b],
    ¬(s.desc w).view.meets r
  banks : ¬((s.desc w).bankRegion .a).meets ((s.desc w).bankRegion .b)
  ownView : ¬((s.desc w).bankRegion .b).meets (s.desc w).view ∧
    ((s.desc w).bankABase = (s.desc w).viewBase ∨ ¬((s.desc w).bankRegion .a).meets (s.desc w).view)
  otherBanks : ∀ v, v ≠ w → s.inService v →
    ∀ r ∈ [(s.desc v).view, (s.desc v).bankRegion .a, (s.desc v).bankRegion .b],
      ¬((s.desc w).bankRegion .a).meets r ∧ ¬((s.desc w).bankRegion .b).meets r
  alignment : (s.desc w).cma.toNat % 4 = 0 ∧ (s.desc w).lma.toNat % 8 = 0
  markerWords : ∀ v, (v = w ∨ s.inService v) → ∀ m ∈ (s.desc w).markerWords,
    ∀ r ∈ [(s.desc v).view, (s.desc v).bankRegion .a, (s.desc v).bankRegion .b], ¬m.meets r
  markers : ∀ v, v ≠ w → s.inService v → ∀ m ∈ (s.desc w).markerWords, ∀ n ∈ (s.desc v).markerWords, m.base ≠ n.base

end Sys2Proof.Machine
end

