-- ==== Sys2Proof/WellFormed.lean ====
section
/-! DEFINITION. WellFormed: what the operands of a command must satisfy to name an event the part can meet. The step
does not ask for it: a command that is not well formed has the effect its meaning gives it (log 13). -/

namespace Sys2Proof

/-- A request presents one data word per beat of a write, and none for a read (section 2.1). -/
def Access.wellFormed (a : Access) : Bool :=
  if a.write then a.wdata.length == a.beats else a.wdata.isEmpty

/-- The bytes do not reach the execution point of the command they open (R169). -/
def cutShort (bytes : List Byte) : Bool :=
  match transactionOf bytes with
  | .transactionCutShort _ => true
  | _ => false

/-- A register number that is no writable register's: WRITE_REG's own row (R174). -/
def noWriteOfItsOwn (number : BitVec 16) : Bool :=
  match registerNamed number with
  | none => true
  | some .deviceId => true
  | some .counter => true
  | some .frameNumber => true
  | some .devqueue => true
  | some (.groupStatus _) => true
  | some (.windowStatus _ _) => true
  | some (.pageView _) => true
  | some .devstat => false
  | some .devctl => false
  | some .evmask => false
  | some .fmode => false
  | some .fpre => false
  | some .fper => false
  | some .fcut => false
  | some .fmin => false
  | some .fndiv => false
  | some (.groupControl _) => false
  | some (.descriptor _ _) => false

/-- The operands of a command fit its row. -/
def Instr.wellFormed : Instr → Bool
  | .accessAccepted _ a => a.wellFormed
  | .grant => true
  | .memoryResponse _ rdata => decide (rdata.length ≤ 8)
  | .tick => true
  | .periodEnd => true
  | .synthesizedBoundary => true
  | .fsyncEdge => true
  | .holdTimeout => true
  | .fstbPulseEnd => true
  | .frzRise => true
  | .frzFall => true
  | .hardReset => true
  | .readReg _ => true
  | .writeReg number _ => noWriteOfItsOwn number
  | .descriptorWrite _ _ _ => true
  | .devstatWrite _ => true
  | .devctlWrite _ => true
  | .evmaskWrite _ => true
  | .fmodeWrite _ => true
  | .fpreWrite _ => true
  | .fperWrite _ => true
  | .fcutWrite _ => true
  | .fminWrite _ => true
  | .fndivWrite _ => true
  | .deflimWrite _ _ => true
  | .popEvent => true
  | .badCommand code => !commandBytes.contains code
  | .unknownAction code _ => !actionCodes.contains code
  | .transactionCutShort received => cutShort received
  | .enable _ => true
  | .disable _ => true
  | .disarm _ => true
  | .resync _ => true
  | .boundary _ => true
  | .freeze _ => true
  | .release _ => true
  | .engineReset _ => true
  | .fsyncFall => true
  | .mcsnRisingEdge => true

end Sys2Proof
end

