-- ==== Sys2Proof/Certificates/Slice0/Obligations.lean ====
section
/-! DEFINITION. Obligations: the statements about the model, in the order of OBLIGATIONS.json. The result of a command
is given as the exact next state wherever it can be: every field not written there is unchanged. A state that ends in
`.rejudge` is one whose waiting accesses are judged anew (R29); O31 and O32 say what that changes. Most statements are
of states that are `Settled`: no grant is taken before the command's own effect, since none is due, or the one due is
the decision at a response that freed the M-port, which the command can come before (R129, R141). From any other state a
command does what it does from a settled one, that after the due grant, or where none is due that with the mark `freed`
cleared: O33 says so, and log 3 says how the model reads R136 there. A state that ends in `.openDecision` is one right after a response, marked where a decision is
then due (`freed`, the model's own). -/

open Sys2Proof Sys2Proof.Machine

/-! ## The step -/

/-- A step on a queue with a command in front is that command's effect on the state with the queue's rest (log 15 is
the model's choice that commands arrive by a queue). -/
def Obligations.StepRunsFrontCommand : Prop :=
  ∀ (c : Instr) (rest : List Instr) (s : State),
    step { s with pending := c :: rest } = exec c { s with pending := rest }

/-- No command faults or is refused, and none touches the queue of waiting commands or the board's levels to come. -/
def Obligations.EveryCommandAnswersNext : Prop :=
  ∀ (c : Instr) (s : State), ∃ t, exec c s = .next t ∧ t.pending = s.pending ∧ t.board = s.board

/-- A step on an empty queue takes the grant that is due (the model's reading of R136, log 3), and where none is due it
is one BCLK period (the model's choice, log 4): the inputs take the levels the board drives next, the serial lines among
them (O22 says what the port does with those); where no filter completes a run, the strobe and the filters run, and the
prescaler counts and delivers a tick at FPRE. A period begins with the mark `freed`, the model's own, cleared (log 3).
-/
def Obligations.IdleStepIsOneBclkPeriod : Prop :=
  (∀ s : State, s.pending = [] → s.decision ≠ none → step s = exec .grant s) ∧
  (∀ s : State, s.board = [] → s.drive = s) ∧
  (∀ (s : State) (l : BoardLevels) (rest : List BoardLevels), s.board = l :: rest → s.drive = ({ s with
    board := rest, fsync := { s.fsync with pin := l.fsync }, frz := { s.frz with pin := l.frz } }).samplePort l) ∧
  (∀ s : State, s.pending = [] → s.decision = none → s.drive.fsync.due = false → s.drive.frz.due = false →
    let d := ({ s with freed := false } : State).drive
    let t : State :=
      { d with timer := { d.timer with strobe := d.timer.strobe - 1 }, fsync := d.fsync.sample, frz := d.frz.sample }
    (s.timer.mode = .off → step s = .next t) ∧
    (s.timer.mode ≠ .off → s.timer.prescale + 1 < s.timer.fpre.toNat →
      step s = .next { t with timer := { t.timer with prescale := s.timer.prescale + 1 } }) ∧
    (s.timer.mode ≠ .off → s.timer.fpre.toNat ≤ s.timer.prescale + 1 → step s = exec .tick t))

/-- R77: a filter accepts a level at the fourth sample of it in a row and no sooner, whatever the other filter does in
the period and whatever order the period's events are taken in; an accepted change of FRZ is delivered to the Freeze
Unit. R66, R74, R76, R145, R147: the events of a period in which a filter accepts are each taken once, in some order:
the edge of FRZ at the Freeze Unit, the edge of FSYNC at the timer, and the prescaler's count with the tick it delivers,
each after the grant that is due by then (the model's reading of R136, log 3). Which order is a free value (log 5). That
a period is a step on an empty queue, on the board's next levels, is the model's choice (log 4). It begins with the mark
`freed`, the model's own, cleared (log 3). -/
def Obligations.FilterAcceptsAtFourthSample : Prop :=
  (∀ f : Filter, f.pin = f.accepted → f.due = false ∧ f.sample = { f with run := 0 }) ∧
  (∀ f : Filter, f.pin ≠ f.accepted → f.run < 3 → f.due = false ∧ f.sample = { f with run := f.run + 1 }) ∧
  (∀ f : Filter, f.pin ≠ f.accepted → f.run = 3 → f.due = true) ∧
  (∀ s : State, s.pending = [] → s.decision = none → ∃ t, step s = .next t ∧
    (let f := s.drive.frz
     (f.due = true → t.frz = { pin := f.pin, accepted := f.pin, run := 0 } ∧
       t.freeze = if f.pin then { s.freeze with level := true, line := true, latch := true }
                  else { s.freeze with level := false }) ∧
     (f.due = false → t.frz = f.sample ∧ t.freeze = s.freeze)) ∧
    (let f := s.drive.fsync
     (f.due = true → t.fsync = { pin := f.pin, accepted := f.pin, run := 0 }) ∧ (f.due = false → t.fsync = f.sample))) ∧
  (∀ s : State, s.pending = [] → s.decision = none →
    let d := ({ s with freed := false } : State).drive
    let begun : State := { d with
      timer := { d.timer with strobe := d.timer.strobe - 1 }, fsync := d.fsync.sample, frz := d.frz.sample,
      freeCount := d.freeCount + 1 }
    let run (c : Instr) (u : State) : State :=
      match exec c u with
      | .next v => v
      | .fault _ => u
      | .refused _ => u
    let count (u : State) : State :=
      if u.timer.mode = .off then u
      else if u.timer.fpre.toNat ≤ u.timer.prescale + 1 then run .tick u
      else { u with timer := { u.timer with prescale := u.timer.prescale + 1 } }
    let edges : List (State → State) :=
      (if d.frz.due then [run (if d.frz.pin then .frzRise else .frzFall)] else []) ++
        (if d.fsync.due then [run (if d.fsync.pin then .fsyncEdge else .fsyncFall)] else [])
    edges ≠ [] → ∃ es : List (State → State), es.Perm (count :: edges) ∧
      step s = .next (es.foldl (fun u e => e (run .grant u)) begun))

/-! ## The Frame Timer -/

/-- R67, R73, R75: a tick advances the counter; one that would bring it to the FPER in force ends the period, which is
the boundary of PERIOD_END in INTERNAL and of SYNTHESIZED_BOUNDARY in EXTERNAL, by the sync state. -/
def Obligations.TickAdvancesOrEndsThePeriod : Prop :=
  ∀ s : State, s.Settled →
    (s.timer.mode = .off → exec .tick s = .next s) ∧
    (s.timer.mode ≠ .off → s.timer.counter.toNat + 1 < s.timer.fper.toNat →
      exec .tick s = .next { s with timer := { s.timer with counter := s.timer.counter + 1#24, prescale := 0 } }) ∧
    (s.timer.mode = .internal → s.timer.fper.toNat ≤ s.timer.counter.toNat + 1 →
      exec .periodEnd s = .next (s.boundaryWith s.timer.sync none) ∧ exec .tick s = exec .periodEnd s) ∧
    (s.timer.mode = .external → s.timer.fper.toNat ≤ s.timer.counter.toNat + 1 →
      exec .tick s = exec .synthesizedBoundary s ∧
      (s.timer.sync = .seeking → exec .synthesizedBoundary s = .next (s.boundaryWith .seeking none)) ∧
      (s.timer.sync = .locked → exec .synthesizedBoundary s = .next (s.boundaryWith .lost (some .syncLost))) ∧
      (s.timer.sync = .lost → exec .synthesizedBoundary s = .next (s.boundaryWith .lost none)))

/-- R74, R75, R77: an accepted rising edge of FSYNC acts in EXTERNAL alone: early below FMIN, else a boundary. An
accepted fall has no effect on the timer. -/
def Obligations.FsyncEdgeByModeAndCounter : Prop :=
  (∀ s : State, s.Settled → s.fsync.accepted = false →
    let t : State := { s with fsync := { pin := true, accepted := true, run := 0 } }
    (s.timer.mode ≠ .external → exec .fsyncEdge s = .next t) ∧
    (s.timer.mode = .external → s.timer.counter.toNat < s.timer.fmin.toNat →
      exec .fsyncEdge s = .next (t.record { kind := .syncEarly, phase := s.timer.counter })) ∧
    (s.timer.mode = .external → s.timer.fmin.toNat ≤ s.timer.counter.toNat →
      (s.timer.sync = .seeking → exec .fsyncEdge s = .next (t.boundaryWith .locked (some .syncLocked))) ∧
      (s.timer.sync = .locked → exec .fsyncEdge s = .next (t.boundaryWith .locked none)) ∧
      (s.timer.sync = .lost → exec .fsyncEdge s = .next (t.boundaryWith .locked (some .syncLocked))))) ∧
  (∀ s : State, s.Settled → s.fsync.accepted = true →
    exec .fsyncFall s = .next { s with fsync := { pin := false, accepted := false, run := 0 } })

/-- R69, R78 to R81: what every boundary does at the Frame Timer, its records in order (SYNC_LOCKED or SYNC_LOST, then
FRAME where the new frame number is a multiple of FNDIV), before the boundary is delivered; and the BOUNDARY action, which
gives one at once in every mode. FSTB is high after it and low at its end. -/
def Obligations.BoundaryAtTheFrameTimer : Prop :=
  (∀ (s : State) (sync : SyncState) (mark : Option EventKind),
    let u : State := { s with timer :=
      { s.timer with counter := 0#24, prescale := 0, frame := s.timer.frame + 1#16,
                     fper := s.timer.pendFper.getD s.timer.fper, fcut := s.timer.pendFcut.getD s.timer.fcut,
                     pendFper := none, pendFcut := none, sync := sync, strobe := 4 } }
    let v : State := match mark with | none => u | some k => u.record { kind := k }
    s.boundaryWith sync mark =
        (if u.timer.frame.toNat % u.timer.fndiv.toNat = 0 then v.record { kind := .frame } else v).deliver ∧
      (s.boundaryWith sync mark).timer = u.timer ∧ (s.boundaryWith sync mark).fstb = true) ∧
  (∀ (s : State) (arg : Byte), s.portReady → s.Settled →
    exec (.boundary arg) s = .next ((s.boundaryWith s.timer.sync none).answer [0x01#8])) ∧
  (∀ s : State, s.Settled → ∃ t, exec .fstbPulseEnd s = .next t ∧ t.fstb = false ∧
    t = { s with timer := { s.timer with strobe := 0 } })

/-- R72, R175: a write of FMODE takes a mode at once with no boundary; OFF installs the pending copy; code 3 is
refused. -/
def Obligations.ModeWriteRestartsTheFrame : Prop :=
  ∀ (v : Word) (s : State), s.portReady → s.Settled →
    let u : Timer := { s.timer with counter := 0#24, prescale := 0, sync := .seeking }
    (v.extractLsb' 0 2 = 0#2 → exec (.fmodeWrite v) s = .next ({ s with timer :=
      { u with mode := .off, fper := s.timer.pendFper.getD s.timer.fper, fcut := s.timer.pendFcut.getD s.timer.fcut,
               pendFper := none, pendFcut := none } }.answer [0x01#8])) ∧
    (v.extractLsb' 0 2 = 1#2 →
      exec (.fmodeWrite v) s = .next ({ s with timer := { u with mode := .internal } }.answer [0x01#8])) ∧
    (v.extractLsb' 0 2 = 2#2 →
      exec (.fmodeWrite v) s = .next ({ s with timer := { u with mode := .external } }.answer [0x01#8])) ∧
    (v.extractLsb' 0 2 = 3#2 → exec (.fmodeWrite v) s = .next (s.answer [0x03#8]))

/-- R68: writes of FPER and FCUT, judged against the values that will apply: into force in OFF, pending while the timer
runs. R66, R70, R71: writes of FPRE, FMIN and FNDIV, in every mode. A refused write changes nothing. -/
def Obligations.TimerLimitWrites : Prop :=
  ∀ (v : Word) (s : State), s.portReady → s.Settled →
    let fcut := (s.timer.pendFcut.getD s.timer.fcut).toNat
    let fper := (s.timer.pendFper.getD s.timer.fper).toNat
    (16 ≤ v.toNat ∧ v.toNat ≤ 16777215 ∧ (fcut = 0 ∨ fcut < v.toNat) ∧ s.timer.fmin.toNat < v.toNat →
      (s.timer.mode = .off →
        exec (.fperWrite v) s = .next ({ s with timer := { s.timer with fper := v.setWidth 24 } }.answer [0x01#8])) ∧
      (s.timer.mode ≠ .off → exec (.fperWrite v) s =
        .next ({ s with timer := { s.timer with pendFper := some (v.setWidth 24) } }.answer [0x01#8]))) ∧
    (¬(16 ≤ v.toNat ∧ v.toNat ≤ 16777215 ∧ (fcut = 0 ∨ fcut < v.toNat) ∧ s.timer.fmin.toNat < v.toNat) →
      exec (.fperWrite v) s = .next (s.answer [0x03#8])) ∧
    (v.toNat = 0 ∨ v.toNat < fper →
      (s.timer.mode = .off →
        exec (.fcutWrite v) s = .next ({ s with timer := { s.timer with fcut := v.setWidth 24 } }.answer [0x01#8])) ∧
      (s.timer.mode ≠ .off → exec (.fcutWrite v) s =
        .next ({ s with timer := { s.timer with pendFcut := some (v.setWidth 24) } }.answer [0x01#8]))) ∧
    (¬(v.toNat = 0 ∨ v.toNat < fper) → exec (.fcutWrite v) s = .next (s.answer [0x03#8])) ∧
    (v = 1#32 ∨ v = 4#32 ∨ v = 16#32 ∨ v = 64#32 → exec (.fpreWrite v) s =
      .next ({ s with timer := { s.timer with fpre := v.setWidth 7, prescale := 0 } }.answer [0x01#8])) ∧
    (¬(v = 1#32 ∨ v = 4#32 ∨ v = 16#32 ∨ v = 64#32) → exec (.fpreWrite v) s = .next (s.answer [0x03#8])) ∧
    (v.toNat < s.timer.fper.toNat ∧ v.toNat < fper → exec (.fminWrite v) s =
      .next ({ s with timer := { s.timer with fmin := v.setWidth 24 } }.answer [0x01#8])) ∧
    (¬(v.toNat < s.timer.fper.toNat ∧ v.toNat < fper) →
      exec (.fminWrite v) s = .next (s.answer [0x03#8])) ∧
    (v = 1#32 ∨ v = 2#32 ∨ v = 4#32 ∨ v = 8#32 → exec (.fndivWrite v) s =
      .next ({ s with timer := { s.timer with fndiv := v.setWidth 4 } }.answer [0x01#8])) ∧
    (¬(v = 1#32 ∨ v = 2#32 ∨ v = 4#32 ∨ v = 8#32) → exec (.fndivWrite v) s = .next (s.answer [0x03#8]))

/-! ## Resets -/

/-- R181, R23, R49, R82, R143, R152, R179: a hard reset completes in every state, and the registers and the items no
register shows have the values the manual gives; a port whose MCSn is low ignores its lines. That the pins keep the
board's levels, and the queues their commands and levels to come, is the model's choice (log 11). The mark `freed` is
the model's own (log 3). -/
def Obligations.HardResetValues : Prop :=
  ∀ s : State, ∃ t, exec .hardReset s = .next t ∧
    (∀ r : RegName, t.registerValue r =
      match r with
      | .deviceId => 0x73100001#32
      | .devctl => 0x00000200#32
      | .evmask => 0x00FFFFFE#32
      | .fpre => 1#32
      | .fper => 65535#32
      | .fndiv => 1#32
      | .groupControl _ => 2#32
      | _ => 0#32) ∧
    t.pPort.phase = .idle ∧ t.cPort.phase = .idle ∧ t.holdCount = 0 ∧ (∀ w, t.noted w = false) ∧ t.pendingFlip = none ∧
    t.copyQueue = [] ∧ t.engine.phase = .idle ∧ t.engine.page = none ∧ t.engine.pair = 0 ∧ t.engine.issued = false ∧
    t.mport = .free ∧ t.freed = false ∧ t.streak = 0 ∧ t.pointer = .copy ∧ t.timer.prescale = 0 ∧ t.irq = false ∧ t.fstb = false ∧
    t.msoDriven = false ∧
    t.mgmt =
      { framing := if s.mgmt.framing = .ready then .ready else .ignoring, out := [], msck := s.mgmt.msck } ∧
    t.fsync = { pin := s.fsync.pin, accepted := false, run := 0 } ∧
    t.frz = { pin := s.frz.pin, accepted := false, run := 0 } ∧ t.board = s.board ∧ t.pending = s.pending

/-- R107, whole: the groups after a hard reset. -/
def Obligations.HardResetLeavesGroupsIdle : Prop :=
  ∀ s : State, ∃ t, exec .hardReset s = .next t ∧
    (∀ g, (t.group g).state = .idle ∧ (t.group g).count = 0#4 ∧ (t.group g).limit = 2#4) ∧ t.pendingFlip = none ∧
    (∀ w, (t.window w).enable = .disabled) ∧ (∀ g, t.members g = []) ∧ (∀ g, t.groupReady g = false) ∧ t.events = []

/-- The state after reset satisfies every law of Safety.lean. -/
def Obligations.ResetHasTheLaws : Prop := State.reset.Inv

/-- R178 with R24, R48, R83, R108, R132, R142, R153, R167: an engine reset completes in every state, item by item. That
the IDLE engine's pair number is 0 is the model's choice (log 18). The mark `freed`, clear so that the decision on a
FREE M-port is then taken at once (R142), is the model's own (log 3). -/
def Obligations.EngineResetKeepsConfiguration : Prop :=
  ∀ (s : State) (arg : Byte), s.portReady → s.Settled → ∃ t, exec (.engineReset arg) s = .next t ∧
    (∀ w, t.window w = { Window.reset with desc := s.desc w }) ∧
    (∀ p, t.page p = { state := .unused, bank := .a, attempts := 0#2 }) ∧
    (∀ g, t.group g = { state := .idle, count := 0#4, limit := (s.group g).limit }) ∧ t.pendingFlip = none ∧
    t.copyQueue = [] ∧ t.engine.phase = .idle ∧ t.engine.page = none ∧ t.engine.pair = 0 ∧ t.engine.issued = false ∧
    t.mport = s.mport ∧ t.freed = false ∧ t.streak = 0 ∧ t.pointer = s.pointer ∧
    t.timer = { s.timer with mode := .off, counter := 0#24, prescale := 0, frame := 0#16, sync := .seeking,
                             pendFper := none, pendFcut := none } ∧
    t.fsync = s.fsync ∧ t.frz = s.frz ∧ t.freeze = s.freeze ∧ t.events = [] ∧ t.overrun = false ∧
    t.evmask = s.evmask ∧ t.irqEnable = s.irqEnable ∧ t.holdMax = s.holdMax ∧ t.holdCount = 0 ∧
    (∀ w, t.noted w = false) ∧ t.mgmt = { framing := .answered, out := [0x01#8], msck := true } ∧
    (∀ x, match s.phaseOf x with
      | .idle => t.port x = s.port x
      | .pending a _ => t.port x = { phase := .pending a { cls := .plain, addr := a.addr }, resp := none }
      | .held a _ _ _ =>
        x = .p → t.port x = { phase := .idle, resp := some { resp := .error, rdata := readBeats a [] } }
      | .issued _ _ => t.port x = s.port x)

/-! ## The management port -/

/-- Every management command is the one its own bytes spell: no byte of a transaction is dropped or misread. -/
def Obligations.TransactionBytesRoundTrip : Prop :=
  ∀ (c : Instr) (bs : List Byte), c.wellFormed = true → transactionBytes c = some bs → transactionOf bs = c

/-- R173, R181: a register number names one register and each register has its number; a read returns the register's
value, or BAD_COMMAND and zeros, and changes nothing else. -/
def Obligations.ReadRegReturnsTheValue : Prop :=
  (∀ r : RegName, registerNamed (registerNumber r) = some r) ∧
  (∀ (n : BitVec 16) (r : RegName), registerNamed n = some r → registerNumber r = n) ∧
  (∀ (n : BitVec 16) (r : RegName) (s : State), s.portReady → s.Settled → registerNamed n = some r →
    exec (.readReg n) s = .next (s.answer (0x01#8 :: bytesOf32 (s.registerValue r)))) ∧
  (∀ (n : BitVec 16) (s : State), s.portReady → s.Settled → registerNamed n = none →
    exec (.readReg n) s = .next (s.answer [0x06#8, 0x00#8, 0x00#8, 0x00#8, 0x00#8]))

/-- R9, R181: the fields of the registers stand at the bits and in the codings the manual gives. -/
def Obligations.StatusRegisterFields : Prop :=
  ∀ s : State, s.events.length ≤ 32 → s.copyQueue.length ≤ 512 → (∀ w, s.inService w → (s.desc w).usable = true) →
    (let v := s.registerValue .devstat
     v.getLsbD 0 = s.freeze.latch ∧ v.getLsbD 1 = s.freeze.line ∧ v.getLsbD 2 = s.freeze.command ∧
      v.getLsbD 3 = s.freeze.level ∧
      v.extractLsb' 4 2 = (match s.timer.sync with | .seeking => 0#2 | .locked => 1#2 | .lost => 2#2) ∧
      v.getLsbD 8 = s.overrun ∧ (v.extractLsb' 16 6).toNat = s.events.length) ∧
    (let v := s.registerValue .devqueue
     (v.extractLsb' 0 10).toNat = s.copyQueue.length ∧ v.getLsbD 15 = s.engine.page.isSome ∧
      (∀ p, s.engine.page = some p → (v.extractLsb' 16 9).toNat = p.val) ∧
      (s.engine.page = none → v.extractLsb' 16 9 = 0#9)) ∧
    (s.registerValue .deviceId = 0x73100001#32 ∧ s.registerValue .evmask = s.evmask) ∧
    (let v := s.registerValue .devctl
     v.getLsbD 0 = s.irqEnable ∧ v.extractLsb' 8 3 = s.holdMax) ∧
    (let v := s.registerValue .fmode
     v.extractLsb' 0 2 = (match s.timer.mode with | .off => 0#2 | .internal => 1#2 | .external => 2#2) ∧
      v.getLsbD 4 = s.timer.pendFper.isSome ∧ v.getLsbD 5 = s.timer.pendFcut.isSome) ∧
    (s.registerValue .fpre = s.timer.fpre.setWidth 32 ∧
      s.registerValue .fper = (s.timer.pendFper.getD s.timer.fper).setWidth 32 ∧
      s.registerValue .fcut = (s.timer.pendFcut.getD s.timer.fcut).setWidth 32 ∧
      s.registerValue .fmin = s.timer.fmin.setWidth 32 ∧ s.registerValue .fndiv = s.timer.fndiv.setWidth 32 ∧
      s.registerValue .counter = s.timer.counter.setWidth 32 ∧
      s.registerValue .frameNumber = s.timer.frame.setWidth 32) ∧
    (∀ g, s.registerValue (.groupControl g) = (s.group g).limit.setWidth 32 ∧
      let v := s.registerValue (.groupStatus g)
      v.getLsbD 0 = ((s.group g).state == .deferred) ∧ v.extractLsb' 8 4 = (s.group g).count) ∧
    (∀ w, let d := s.desc w
      let r (k : Fin 8) := s.registerValue (.descriptor w k)
      r 0 = d.viewBase ∧ r 1 = d.bankABase ∧ r 2 = d.bankBBase ∧ (r 3).extractLsb' 0 10 = d.pageSize ∧
        (r 4).extractLsb' 0 9 = d.pageFirst ∧ (r 4).extractLsb' 16 10 = d.pageCount ∧ (r 5).extractLsb' 0 2 = d.group ∧
        (r 5).extractLsb' 8 2 = d.policy ∧ (r 5).getLsbD 16 = d.guard ∧ r 6 = d.cma ∧ r 7 = d.lma) ∧
    (∀ w, let x := s.window w
      let r (k : Fin 8) := s.registerValue (.windowStatus w k)
      let count (st : PageState) : Nat := if x.enable = .disabled then 0 else (s.runPages w st).length
      (r 0).extractLsb' 0 2 = (match x.enable with | .disabled => 0#2 | .enabled => 1#2 | .draining => 2#2) ∧
        (r 0).extractLsb' 4 2 = (match x.commit with | .isOpen => 0#2 | .armedLate => 1#2 | .armed => 2#2) ∧
        (r 0).extractLsb' 8 2 = (match x.bracket with | .closed => 0#2 | .isOpen => 1#2 | .revoked => 2#2) ∧
        (r 0).getLsbD 12 = x.readyPending ∧ r 1 = x.armedTag ∧ (r 2).extractLsb' 0 24 = x.armPhase ∧
        r 3 = x.committedTag ∧ (r 4).extractLsb' 0 16 = x.lastCommitFrame ∧
        ((r 5).extractLsb' 0 10).toNat = count .synced ∧ ((r 5).extractLsb' 16 10).toNat = count .dirty ∧
        ((r 6).extractLsb' 0 10).toNat = count .stale ∧ ((r 6).extractLsb' 16 10).toNat = count .copying ∧
        ((r 7).extractLsb' 0 10).toNat = count .broken) ∧
    (∀ p, let v := s.registerValue (.pageView p)
      v.extractLsb' 0 3 = (match (s.page p).state with
        | .unused => 0#3 | .synced => 1#3 | .dirty => 2#3 | .stale => 3#3 | .copying => 4#3 | .broken => 5#3) ∧
        v.getLsbD 4 = ((s.page p).bank == .b) ∧ v.extractLsb' 8 2 = (s.page p).attempts)

/-- R170, R174, R177: a write of a register that is read-only or not in the map, an unknown command byte, an unknown
action code and a window argument above 7 are answered BAD_COMMAND with nothing changed. -/
def Obligations.UnknownRequestsAreBadCommand : Prop :=
  ∀ s : State, s.portReady → s.Settled →
    (∀ n v, noWriteOfItsOwn n = true → exec (.writeReg n v) s = .next (s.answer [0x06#8])) ∧
    (∀ b, b ∉ commandBytes → exec (.badCommand b) s = .next (s.answer [0x06#8])) ∧
    (∀ code arg, code ∉ actionCodes → exec (.unknownAction code arg) s = .next (s.answer [0x06#8])) ∧
    (∀ arg : Byte, 8 ≤ arg.toNat →
      exec (.enable arg) s = .next (s.answer [0x06#8]) ∧ exec (.disable arg) s = .next (s.answer [0x06#8]) ∧
      exec (.disarm arg) s = .next (s.answer [0x06#8]) ∧ exec (.resync arg) s = .next (s.answer [0x06#8]))

/-- R3, R181: a descriptor write is taken while the window is DISABLED, each field keeping the bits of its own width,
and is refused with REFUSED_STATE otherwise. -/
def Obligations.DescriptorWriteOnlyWhileDisabled : Prop :=
  ∀ (w k : Fin 8) (v : Word) (s : State), s.portReady → s.Settled →
    ((s.window w).enable = .disabled → ∃ d : Descriptor,
      exec (.descriptorWrite w k v) s = .next ((s.setWindow w { s.window w with desc := d }).answer [0x01#8]) ∧
      d.word k = v &&& (match k with
        | 3 => 0x000003FF#32
        | 4 => 0x03FF01FF#32
        | 5 => 0x00010303#32
        | _ => 0xFFFFFFFF#32) ∧
      ∀ j, j ≠ k → d.word j = (s.desc w).word j) ∧
    ((s.window w).enable ≠ .disabled → exec (.descriptorWrite w k v) s = .next (s.answer [0x04#8]))

/-- R161, R164, R165, R175: writes of DEVSTAT, DEVCTL and EVMASK, and IRQ, which follows the queue, OVERRUN and IRQEN. -/
def Obligations.DeviceRegisterWrites : Prop :=
  (∀ (v : Word) (s : State), s.portReady → s.Settled →
    exec (.devstatWrite v) s =
        .next ({ s with overrun := if v.getLsbD 8 then false else s.overrun }.answer [0x01#8]) ∧
      exec (.evmaskWrite v) s = .next ({ s with evmask := v &&& 0x00FFFFFE#32 }.answer [0x01#8]) ∧
      (v.extractLsb' 8 3 ≠ 0#3 → exec (.devctlWrite v) s =
        .next ({ s with irqEnable := v.getLsbD 0, holdMax := v.extractLsb' 8 3 }.answer [0x01#8])) ∧
      (v.extractLsb' 8 3 = 0#3 → exec (.devctlWrite v) s = .next (s.answer [0x03#8]))) ∧
  (∀ s : State, s.irq = true ↔ s.irqEnable = true ∧ (s.events ≠ [] ∨ s.overrun = true))

/-- R87: a write of DEFLIM is taken for 0 to 15, lowers a count above it, and governs the next boundary; a value above
15 is refused. -/
def Obligations.DeflimWriteBoundsTheCount : Prop :=
  ∀ (g : Fin 4) (v : Word) (s : State), s.portReady → s.Settled → s.GroupsOk →
    (v.toNat ≤ 15 →
      exec (.deflimWrite g v) s = .next ((s.setGroup g
        { s.group g with limit := v.setWidth 4,
                         count := if v.toNat < (s.group g).count.toNat then v.setWidth 4 else (s.group g).count }).answer
          [0x01#8]) ∧
      (∀ t, exec (.deflimWrite g v) s = .next t → v.toNat ≤ (s.group g).count.toNat → t.groupReady g = true →
        t.freeze.latch = false → t.openMembers g ≠ [] → t.groupOutcome g = .force)) ∧
    (15 < v.toNat → exec (.deflimWrite g v) s = .next (s.answer [0x03#8]))

/-- R155, R161: the three outcomes of a record that arrives, by the mask's bit at the kind's code and the queue's
length; R156: a record is filled with the frame number standing. R162, R176, R180: a pop removes the oldest record and
returns OK and its 16 bytes; on an empty queue it returns a record of kind NONE. R180: the codes of the kinds, and the
field that stands at each byte of a record. -/
def Obligations.RecordsArriveAndArePopped : Prop :=
  (∀ (s : State) (e : Event),
    (s.evmask.getLsbD e.kind.code.toNat = false → s.arrive e = s) ∧
    (s.evmask.getLsbD e.kind.code.toNat = true → s.events.length < 32 →
      s.arrive e = { s with events := s.events ++ [e] }) ∧
    (s.evmask.getLsbD e.kind.code.toNat = true → 32 ≤ s.events.length → s.arrive e = { s with overrun := true }) ∧
    s.record e = s.arrive { e with frame := s.timer.frame }) ∧
  (∀ (e : Event) (rest : List Event) (s : State), s.portReady → s.Settled → s.events = e :: rest →
    exec .popEvent s = .next ({ s with events := rest }.answerPop (0x01#8 :: e.bytes))) ∧
  (∀ s : State, s.portReady → s.Settled → s.events = [] →
    exec .popEvent s = .next (s.answerPop ([0x01#8, 0x00#8, 0xFF#8, 0xFF#8, 0x00#8] ++ bytesOf16 s.timer.frame ++
      [0xFF#8, 0xFF#8] ++ List.replicate 8 0x00#8))) ∧
  (∀ e : Event, ∃ b0 b1 b2 b3 b4 b5 b6 b7 b8 b9 b10 b11 b12 b13 b14 b15,
    e.bytes = [b0, b1, b2, b3, b4, b5, b6, b7, b8, b9, b10, b11, b12, b13, b14, b15] ∧ b0 = e.kind.code ∧
      b1 = (match e.window with | none => 0xFF#8 | some w => BitVec.ofNat 8 w.val) ∧
      b2 = (match e.group with | none => 0xFF#8 | some g => BitVec.ofNat 8 g.val) ∧
      b3 = e.detail ∧ b4 ++ b5 = e.frame ∧
      (b6 ++ b7 : BitVec 16) = (match e.page with | none => 0xFFFF#16 | some p => BitVec.ofNat 16 p.val) ∧
      b8 ++ b9 ++ b10 ++ b11 = e.tag ∧ b12 ++ b13 ++ b14 = e.phase ∧ b15 = e.count) ∧
  (∀ k : EventKind, k.code = match k with
    | .none => 0x00#8
    | .commit => 0x01#8
    | .commitDeferred => 0x02#8
    | .commitForced => 0x03#8
    | .freezeSkip => 0x04#8
    | .frozen => 0x05#8
    | .released => 0x06#8
    | .markerLate => 0x07#8
    | .lateWrite => 0x08#8
    | .holdTimeout => 0x09#8
    | .ownership => 0x0A#8
    | .guard => 0x0B#8
    | .alignFault => 0x0C#8
    | .memoryError => 0x0D#8
    | .copyRetry => 0x0E#8
    | .pageBroken => 0x0F#8
    | .pageBrokenWrite => 0x10#8
    | .windowReady => 0x11#8
    | .windowDisabled => 0x12#8
    | .syncLocked => 0x13#8
    | .syncLost => 0x14#8
    | .syncEarly => 0x15#8
    | .frame => 0x16#8
    | .leaseDouble => 0x17#8)

/-- R168, R169, R170, R176, R179: a port that is not ready ignores a transaction; MCSn rising makes it ready and releases
MSO. MSO is undriven while MCSn is high and while the port ignores its lines. Before the execution point the byte returned
is OK after POP_EVENT's command byte and 0x00 elsewhere; after it come the bytes of the answer, with 0x00 in every byte
after the last. The lines, sample by sample: MCSn falls and rises; a rising edge of MSCK samples a bit of MSI while a
transaction is open, eight making a byte, and the eighth of the last byte is the execution point; after a falling edge MSO
is the next bit of the byte returned. Where MCSn changes with a rising edge of MSCK either is taken first (a free value,
log 22). That a queued command is a whole transaction, that TRANSACTION_CUT_SHORT contains the rise of MCSn that ends it
in every state of the port, and that a transaction clocked to its execution point puts its command in front of the queue,
is the model's choice (log 10). -/
def Obligations.TransactionsAreFramed : Prop :=
  (∀ (c : Instr) (s : State), s.Settled → (transactionBytes c).isSome = true →
    (∀ bs, c ≠ .transactionCutShort bs) → ¬s.portReady → exec c s = .next s) ∧
  (∀ s : State, s.Settled →
    let u : State := { s with mgmt := { framing := .ready, out := [], msck := s.mgmt.msck } }
    exec .mcsnRisingEdge s = .next u ∧ ∀ bs : List Byte, exec (.transactionCutShort bs) s = .next u) ∧
  (∀ s : State,
    (s.mgmt.framing = .ready ∨ s.mgmt.framing = .ignoring → s.msoLevel = none ∧ s.msoByte = none) ∧
    (s.mgmt.framing = .opened ∨ s.mgmt.framing = .answered → s.msoLevel = some s.mgmt.mso) ∧
    (s.mgmt.framing = .opened → s.mgmt.received = [0x33#8] → s.msoByte = some 0x01#8) ∧
    (s.mgmt.framing = .opened → s.mgmt.received ≠ [0x33#8] → s.msoByte = some 0x00#8) ∧
    (s.mgmt.framing = .answered → (∀ h : s.mgmt.index < s.mgmt.out.length, s.msoByte = some s.mgmt.out[s.mgmt.index]) ∧
      (s.mgmt.out.length ≤ s.mgmt.index → s.msoByte = some 0x00#8))) ∧
  (∀ (s : State) (l : BoardLevels),
    let m := s.mgmt
    let holds : Prop := l.mcsn = true ↔ m.framing = .ready
    let selected : ManagementPort :=
      if l.mcsn then { framing := .ready, out := [], msck := m.msck }
      else if m.framing = .ready then { framing := .opened, out := [], msck := m.msck } else m
    (l.msck = m.msck → s.samplePort l = { s with mgmt := selected }) ∧
    (m.msck = true → l.msck = false → s.samplePort l = { s with mgmt :=
      if selected.framing = .opened ∨ selected.framing = .answered then
        { selected with msck := false, mso := selected.returned.getLsbD (7 - selected.bit) }
      else { selected with msck := false } }) ∧
    (m.msck = false → l.msck = true → holds →
      let byte : Byte := m.shift.extractLsb' 0 7 ++ BitVec.ofBool l.msi
      let u : State := { s with mgmt := { m with
        msck := true, shift := byte, bit := 0, received := m.received ++ [byte] } }
      (m.framing = .ready ∨ m.framing = .ignoring → s.samplePort l = { s with mgmt := { selected with msck := true } }) ∧
      (m.framing = .opened → m.bit < 7 →
        s.samplePort l = { s with mgmt := { m with msck := true, shift := byte, bit := m.bit + 1 } }) ∧
      (m.framing = .opened → m.bit = 7 → (∃ bs, transactionOf (m.received ++ [byte]) = .transactionCutShort bs) →
        s.samplePort l = u) ∧
      (m.framing = .opened → m.bit = 7 → (∀ bs, transactionOf (m.received ++ [byte]) ≠ .transactionCutShort bs) →
        s.samplePort l = { u with pending := transactionOf (m.received ++ [byte]) :: s.pending }) ∧
      (m.framing = .answered → m.bit < 7 → s.samplePort l = { s with mgmt := { m with msck := true, bit := m.bit + 1 } }) ∧
      (m.framing = .answered → m.bit = 7 →
        s.samplePort l = { s with mgmt := { m with msck := true, bit := 0, index := m.index + 1 } })) ∧
    (m.msck = false → l.msck = true → ¬holds →
      let r : State := { s with freeCount := s.freeCount + 1 }
      let edge := r.samplePort { l with mcsn := !l.mcsn }
      s.samplePort l = (r.samplePort { l with msck := false }).samplePort l ∨
      (edge.pending = s.pending ∧ s.samplePort l = edge.samplePort l) ∨
      (∃ c, edge.pending = c :: s.pending ∧ s.samplePort l = { edge with pending := c :: .mcsnRisingEdge :: s.pending })))

/-! ## The ports -/

/-- R26: the form test, and that what passes lies in one aligned 32-byte block. R26, R27: what fails is answered ERROR
at once. R25: a handler that holds an access accepts no other. -/
def Obligations.FormTestAtAcceptance : Prop :=
  (∀ a : Access,
    (formOk a = true ↔
      (a.blen = 0#2 ∧
        (a.size = 0#2 ∨ (a.size = 1#2 ∧ a.addr.toNat % 2 = 0) ∨ (a.size = 2#2 ∧ a.addr.toNat % 4 = 0))) ∨
      (a.blen = 1#2 ∧ a.size = 2#2 ∧ a.addr.toNat % 8 = 0) ∨ (a.blen = 2#2 ∧ a.size = 2#2 ∧ a.addr.toNat % 16 = 0) ∨
      (a.blen = 3#2 ∧ a.size = 2#2 ∧ a.addr.toNat % 32 = 0)) ∧
    (formOk a = true → a.addr.toNat % 32 + 2 ^ a.size.toNat * a.beats ≤ 32)) ∧
  (∀ (x : Port) (a : Access) (s : State), s.Settled → s.phaseOf x = .idle → formOk a = false →
    exec (.accessAccepted x a) s = .next ((s.setPort x
      { phase := .idle, resp := some { resp := .error, rdata := if a.write then [] else List.replicate a.beats 0#32 } }
      ).record { kind := .alignFault, detail := match x with | .p => 0x01#8 | .c => 0x02#8 })) ∧
  (∀ (x : Port) (a : Access) (s : State), s.Settled → s.phaseOf x ≠ .idle → exec (.accessAccepted x a) s = .next s)

/-- R34, whole: a consumer read of a view is served from the current copy, whatever the page's state, at its acceptance
and at every judgement anew, and waits for its grant alone; a consumer write is answered ERROR at once with OWNERSHIP, at either judgement. -/
def Obligations.ConsumerAccessOfAView : Prop :=
  (∀ (s : State) (a : Access) (w : Fin 8), s.Settled → s.cPort.phase = .idle → formOk a = true → s.place .c a = .view w →
    let p := (s.desc w).pageAt a.addr
    let bank := (s.page p).bank
    (a.write = false → exec (.accessAccepted .c a) s = .next { s with cPort :=
      { phase := .pending a { cls := .view w p bank, addr := (s.desc w).bankAddr bank a.addr }, resp := none } }) ∧
    (a.write = true → exec (.accessAccepted .c a) s = .next ({ s with cPort :=
      { phase := .idle, resp := some { resp := .error, rdata := [] } } }.record
        { kind := .ownership, window := some w, page := some p }))) ∧
  (∀ (s : State) (a : Access) (r : Resolution) (w : Fin 8), s.cPort.phase = .pending a r → a.write = false →
    s.place .c a = .view w →
    let p := (s.desc w).pageAt a.addr
    let bank := (s.page p).bank
    s.rejudge.cPort =
      { phase := .pending a { cls := .view w p bank, addr := (s.desc w).bankAddr bank a.addr }, resp := none }) ∧
  (∀ (s : State) (a : Access) (r : Resolution) (w : Fin 8), s.cPort.phase = .pending a r → a.write = true →
    s.place .c a = .view w →
    let answered : PortState := { phase := .idle, resp := some { resp := .error, rdata := [] } }
    s.rejudge.cPort = answered ∧
    (s.pPort.phase = .idle → s.rejudge = { s with cPort := answered }.record
      { kind := .ownership, window := some w, page := some ((s.desc w).pageAt a.addr) }))

/-- R35, whole: a producer read of a view is served from the other copy of a DIRTY page and the current copy of any
other, whatever the window's commit state, at its acceptance and at every judgement anew, and is never held. -/
def Obligations.ProducerReadOfAView : Prop :=
  (∀ (s : State) (a : Access) (w : Fin 8), s.Settled → s.pPort.phase = .idle → formOk a = true → a.write = false →
    s.place .p a = .view w →
    let p := (s.desc w).pageAt a.addr
    ((s.page p).state = .dirty → exec (.accessAccepted .p a) s = .next { s with holdCount := 0, pPort :=
      { phase := .pending a { cls := .view w p (s.page p).bank.other,
                              addr := (s.desc w).bankAddr (s.page p).bank.other a.addr }, resp := none } }) ∧
    ((s.page p).state ≠ .dirty → exec (.accessAccepted .p a) s = .next { s with holdCount := 0, pPort :=
      { phase := .pending a { cls := .view w p (s.page p).bank,
                              addr := (s.desc w).bankAddr (s.page p).bank a.addr }, resp := none } })) ∧
  (∀ (s : State) (a : Access) (r : Resolution) (w : Fin 8), s.pPort.phase = .pending a r → a.write = false →
    s.place .p a = .view w →
    let p := (s.desc w).pageAt a.addr
    let bank := if (s.page p).state = .dirty then (s.page p).bank.other else (s.page p).bank
    s.rejudge.pPort =
      { phase := .pending a { cls := .view w p bank, addr := (s.desc w).bankAddr bank a.addr }, resp := none })

/-- R36, R39: a producer write of the view of an OPEN window, by the state of its page, at its acceptance; and, R40 and
R46, where a write that waits is judged anew, a HELD one among them. -/
def Obligations.ProducerWriteOfAnOpenWindow : Prop :=
  (∀ (s : State) (a : Access) (w : Fin 8), s.Settled → s.pPort.phase = .idle → formOk a = true → a.write = true →
    s.place .p a = .view w → (s.window w).commit = .isOpen →
    let p := (s.desc w).pageAt a.addr
    ((s.page p).state = .synced ∨ (s.page p).state = .dirty →
      exec (.accessAccepted .p a) s = .next { s with holdCount := 0, pPort :=
        { phase := .pending a { cls := .view w p (s.page p).bank.other,
                                addr := (s.desc w).bankAddr (s.page p).bank.other a.addr }, resp := none } }) ∧
    ((s.page p).state = .stale → exec (.accessAccepted .p a) s = .next { s with
      holdCount := 0, pPort := { phase := .held a .demand w p, resp := none },
      copyQueue := p :: s.copyQueue.filter (· ≠ p) }) ∧
    ((s.page p).state = .copying → exec (.accessAccepted .p a) s = .next { s with
      holdCount := 0, pPort := { phase := .held a .demand w p, resp := none } }) ∧
    ((s.page p).state = .broken → exec (.accessAccepted .p a) s = .next ({ s with
      holdCount := 0, pPort := { phase := .idle, resp := some { resp := .error, rdata := [] } } }.record
        { kind := .pageBrokenWrite, window := some w, page := some p }))) ∧
  (∀ (s : State) (a : Access) (w : Fin 8), s.waits .p a → a.write = true → s.place .p a = .view w →
    (s.window w).commit = .isOpen →
    let p := (s.desc w).pageAt a.addr
    s.rejudge.holdCount = 0 ∧
    ((s.page p).state = .synced ∨ (s.page p).state = .dirty → s.rejudge.pPort =
      { phase := .pending a { cls := .view w p (s.page p).bank.other,
                              addr := (s.desc w).bankAddr (s.page p).bank.other a.addr }, resp := none }) ∧
    ((s.page p).state = .stale → s.rejudge.pPort = { phase := .held a .demand w p, resp := none } ∧
      s.rejudge.copyQueue = p :: s.copyQueue.filter (· ≠ p)) ∧
    ((s.page p).state = .copying → s.rejudge.pPort = { phase := .held a .demand w p, resp := none } ∧
      s.rejudge.copyQueue = s.copyQueue) ∧
    ((s.page p).state = .broken →
      let answered : PortState := { phase := .idle, resp := some { resp := .error, rdata := [] } }
      s.rejudge.pPort = answered ∧
      (s.cPort.phase = .idle → s.rejudge = { s with holdCount := 0, pPort := answered }.record
        { kind := .pageBrokenWrite, window := some w, page := some p })))

/-- R41 to R44: a late write, by its window's policy: ERROR refuses it, STALL holds it with hold count 0, MERGE lets it
go ahead as though the window were OPEN, LATE_WRITE MERGED recorded first and once for an arming. The same where a write
that waits is judged anew, a SEALED hold that goes on keeping its hold count. -/
def Obligations.LateWriteByPolicy : Prop :=
  (∀ (s : State) (a : Access) (w : Fin 8), s.Settled → s.pPort.phase = .idle → formOk a = true → a.write = true →
    s.place .p a = .view w → (s.window w).commit ≠ .isOpen →
    let p := (s.desc w).pageAt a.addr
    ((s.desc w).policy = 2#2 → exec (.accessAccepted .p a) s = .next ({ s with
      holdCount := 0, pPort := { phase := .idle, resp := some { resp := .error, rdata := [] } } }.record
        { kind := .lateWrite, window := some w, detail := 0x02#8, page := some p })) ∧
    ((s.desc w).policy = 1#2 → exec (.accessAccepted .p a) s = .next { s with
      holdCount := 0, pPort := { phase := .held a .sealed w p, resp := none } }) ∧
    ((s.desc w).policy = 0#2 →
      let n := if s.noted w then s else (s.setNoted w true).record
        { kind := .lateWrite, window := some w, detail := 0x01#8, page := some p }
      ∃ u, exec (.accessAccepted .p a) (n.setWindow w { s.window w with commit := .isOpen }) = .next u ∧
        exec (.accessAccepted .p a) s = .next { u with windows := s.windows })) ∧
  (∀ (s : State) (a : Access) (w : Fin 8), s.waits .p a → a.write = true → s.place .p a = .view w →
    (s.window w).commit ≠ .isOpen →
    let p := (s.desc w).pageAt a.addr
    ((s.desc w).policy = 2#2 →
      let answered : PortState := { phase := .idle, resp := some { resp := .error, rdata := [] } }
      s.rejudge.pPort = answered ∧ s.rejudge.holdCount = 0 ∧
      (s.cPort.phase = .idle → s.rejudge = { s with holdCount := 0, pPort := answered }.record
        { kind := .lateWrite, window := some w, detail := 0x02#8, page := some p })) ∧
    ((s.desc w).policy = 1#2 → s.rejudge.pPort = { phase := .held a .sealed w p, resp := none } ∧
      s.rejudge.copyQueue = s.copyQueue ∧
      (s.sealedHold = true → s.rejudge.holdCount = s.holdCount) ∧ (s.sealedHold = false → s.rejudge.holdCount = 0)) ∧
    ((s.desc w).policy = 0#2 →
      let n := if s.noted w then s else (s.setNoted w true).record
        { kind := .lateWrite, window := some w, detail := 0x01#8, page := some p }
      let u := (n.setWindow w { s.window w with commit := .isOpen }).rejudge
      s.rejudge.pPort = u.pPort ∧ s.rejudge.holdCount = u.holdCount ∧ s.rejudge.copyQueue = u.copyQueue ∧
        s.rejudge.noted w = true ∧ (s.cPort.phase = .idle → s.rejudge = { u with windows := s.windows })))

/-- R31, R32, R37, R38: an access that is a marker, plain, or of an unguarded bank region waits for its grant at its own
address; one of a guarded bank region is answered ERROR with GUARD. The same where an access that waits is judged anew,
a HELD write whose window has left service among them (R20, R40, R46). -/
def Obligations.UntranslatedAndGuardedAccesses : Prop :=
  (∀ (s : State) (x : Port) (a : Access), s.Settled → s.phaseOf x = .idle → formOk a = true →
    let t := match x with | .p => { s with holdCount := 0 } | .c => s
    (s.place x a = .plain → exec (.accessAccepted x a) s =
      .next (t.setPort x { phase := .pending a { cls := .plain, addr := a.addr }, resp := none })) ∧
    (∀ w m, s.place x a = .marker w m → exec (.accessAccepted x a) s =
      .next (t.setPort x { phase := .pending a { cls := .marker w m, addr := a.addr }, resp := none })) ∧
    (∀ w k, s.place x a = .bankRegion w k → (s.desc w).guard = false → exec (.accessAccepted x a) s =
      .next (t.setPort x { phase := .pending a { cls := .bankRegion w k, addr := a.addr }, resp := none })) ∧
    (∀ w k, s.place x a = .bankRegion w k → (s.desc w).guard = true → exec (.accessAccepted x a) s =
      .next ((t.setPort x { phase := .idle, resp := some { resp := .error, rdata := readBeats a [] } }).record
        { kind := .guard, window := some w, detail := match k with | .a => 0x01#8 | .b => 0x02#8 }))) ∧
  (∀ (s : State) (x : Port) (a : Access), s.waits x a →
    (x = .p → (∀ w, s.place x a ≠ .view w) → s.rejudge.holdCount = 0) ∧
    (s.place x a = .plain →
      s.rejudge.port x = { phase := .pending a { cls := .plain, addr := a.addr }, resp := none }) ∧
    (∀ w m, s.place x a = .marker w m →
      s.rejudge.port x = { phase := .pending a { cls := .marker w m, addr := a.addr }, resp := none }) ∧
    (∀ w k, s.place x a = .bankRegion w k → (s.desc w).guard = false →
      s.rejudge.port x = { phase := .pending a { cls := .bankRegion w k, addr := a.addr }, resp := none }) ∧
    (∀ w k, s.place x a = .bankRegion w k → (s.desc w).guard = true →
      let answered : PortState := { phase := .idle, resp := some { resp := .error, rdata := readBeats a [] } }
      s.rejudge.port x = answered ∧
      ((∀ y, y ≠ x → s.phaseOf y = .idle) →
        let t := match x with | .p => { s with holdCount := 0 } | .c => s
        s.rejudge = (t.setPort x answered).record
          { kind := .guard, window := some w, detail := match k with | .a => 0x01#8 | .b => 0x02#8 })))

/-- R30, R50: where an access falls, by the ENABLED windows alone: an access that is a marker of one of them is a marker,
whatever else its address lies in; one that is no marker and lies in a view falls in a view; then a bank region; then
plain. R33: the page and the bank addresses of a view address. -/
def Obligations.ClassificationAndResolution : Prop :=
  (∀ (s : State) (x : Port) (a : Access),
    let noMarker := ∀ v m, s.enabled v = true → ¬isMarkerOf a x (s.desc v) m
    let noView := ∀ v, s.enabled v = true → (s.desc v).view.has a.addr.toNat = false
    (∀ v m, s.enabled v = true → isMarkerOf a x (s.desc v) m → ∃ w k, s.place x a = .marker w k) ∧
    (∀ w m, s.place x a = .marker w m → s.enabled w = true ∧ isMarkerOf a x (s.desc w) m) ∧
    (∀ w, s.place x a = .view w → s.enabled w = true ∧ (s.desc w).view.has a.addr.toNat = true ∧ noMarker) ∧
    (∀ w k, s.place x a = .bankRegion w k →
      s.enabled w = true ∧ ((s.desc w).bankRegion k).has a.addr.toNat = true ∧ noMarker ∧ noView) ∧
    (s.place x a = .plain → noMarker ∧ noView ∧
      ∀ v, s.enabled v = true → ∀ k, ((s.desc v).bankRegion k).has a.addr.toNat = false)) ∧
  (∀ (d : Descriptor) (x : BitVec 32), d.usable = true → d.view.has x.toNat = true →
    (d.pageAt x).val = d.pageFirst.toNat + (x.toNat - d.viewBase.toNat) / d.pageSize.toNat ∧
    d.inRun (d.pageAt x) = true ∧
    (d.bankAddr .a x).toNat = d.bankABase.toNat + (x.toNat - d.viewBase.toNat) ∧
    (d.bankAddr .b x).toNat = d.bankBBase.toNat + (x.toNat - d.viewBase.toNat) ∧
    (d.bankABase = d.viewBase → d.bankAddr .a x = x))

/-- R45, R93: the hold count at a boundary that takes the commit of the held write's window, or has it in the set of the
pending flip, and at one that does not; and the hold timeout. That the command HOLD_TIMEOUT is the P-port Handler's part
alone of a boundary at which the hold times out is the model's choice (log 7). -/
def Obligations.HoldCountAndTimeout : Prop :=
  ∀ (s : State) (a : Access) (w : Fin 8) (p : Fin 512), s.pPort.phase = .held a .sealed w p →
    let answered : PortState := { phase := .idle, resp := some { resp := .error, rdata := readBeats a [] } }
    let out : State := { s with holdCount := 0, pPort := answered }.record
      { kind := .holdTimeout, window := some w, page := some p }
    (s.boundaryTakes w = true ↔ s.TakenAtBoundary w) ∧
    (s.Settled → ¬s.TakenAtBoundary w → s.holdMax.toNat ≤ s.holdCount + 1 →
      exec .holdTimeout s = .next out ∧ s.holdBoundary s.boundaryTakes = out) ∧
    (s.Settled → s.TakenAtBoundary w ∨ s.holdCount + 1 < s.holdMax.toNat → exec .holdTimeout s = .next s) ∧
    (∀ arg, s.portReady → s.Settled → s.JudgedOk → ∃ t, exec (.boundary arg) s = .next t ∧
      (¬s.TakenAtBoundary w → s.holdCount + 1 < s.holdMax.toNat →
        t.pPort = { s.pPort with resp := none } ∧ t.holdCount = s.holdCount + 1) ∧
      (¬s.TakenAtBoundary w → s.holdMax.toNat ≤ s.holdCount + 1 → t.pPort = answered ∧ t.holdCount = 0) ∧
      (∀ g, s.isMember g w = true → (∃ f, s.pendingFlip = some f ∧ f.group = g ∧ w ∈ f.set) ∨
          ((s.groupOutcome g = .commit ∨ s.groupOutcome g = .force) ∧ s.FlipWaits g) →
        t.pPort = { s.pPort with resp := none } ∧ t.holdCount = s.holdCount) ∧
      (∀ g, s.isMember g w = true → s.groupOutcome g = .commit ∨ s.groupOutcome g = .force → ¬s.FlipWaits g →
        (∀ v q, t.pPort.phase ≠ .held a .sealed v q) ∧ t.holdCount = 0))

/-- R29: judging the waiting accesses anew changes no handler that is IDLE or whose access is ISSUED, and nothing
outside the handlers but the Copy Queue, where a STALE page may come to the head, the records and the free-value
counter. -/
def Obligations.RejudgementFrame : Prop :=
  ∀ s : State, (s.rejudge.windows = s.windows ∧ s.rejudge.pages = s.pages ∧ s.rejudge.groups = s.groups ∧
      s.rejudge.pendingFlip = s.pendingFlip ∧ s.rejudge.holdMax = s.holdMax ∧ s.rejudge.engine = s.engine ∧
      s.rejudge.mport = s.mport ∧ s.rejudge.streak = s.streak ∧ s.rejudge.pointer = s.pointer ∧
      s.rejudge.timer = s.timer ∧ s.rejudge.fsync = s.fsync ∧ s.rejudge.frz = s.frz ∧ s.rejudge.freeze = s.freeze ∧
      s.rejudge.evmask = s.evmask ∧ s.rejudge.irqEnable = s.irqEnable ∧ s.rejudge.mgmt = s.mgmt ∧
      s.rejudge.board = s.board ∧ s.rejudge.pending = s.pending) ∧
    (∀ x, s.phaseOf x = .idle → s.rejudge.port x = s.port x) ∧
    (∀ x a r, s.phaseOf x = .issued a r → s.rejudge.port x = s.port x) ∧
    (∀ p, p ∈ s.copyQueue → p ∈ s.rejudge.copyQueue) ∧
    (∀ p, p ∈ s.rejudge.copyQueue → p ∈ s.copyQueue ∨ (s.page p).state = .stale)

/-- R29: judging anew where nothing has changed has no effect. -/
def Obligations.RejudgementOfAJudgedStateIsIdle : Prop :=
  ∀ s : State, s.JudgedOk → s.PortsOk → s.DemandOk → s.copyQueue.Nodup → s.rejudge = s

/-! ## The Memory Arbiter -/

/-- R134: while which conditions each requester's request stands, the Copy Engine's a demand request where a demand is
presented (R39). R136: the grant decision by rank, with the streak limit and the round-robin pointer. R133: right after
a grant none is due. The model's: that a GRANT where none is due changes nothing is its choice (log 2); that another
command takes a grant due by the appearance of its request before its own effect, in the same step, and a response every
grant due, is its reading of R136, the table making GRANT a step of its own (log 3), and so is the mark `freed`, which
counts for nothing where no grant is due. -/
def Obligations.GrantDecisionFollowsTheRanks : Prop :=
  ∀ s : State,
    (∀ x, s.portRequests x = true ↔ ∃ a r, s.phaseOf x = .pending a r) ∧
    (s.engineRequests = true ↔ (s.engine.phase = .idle ∧ s.copyQueue ≠ []) ∨
      ((s.engine.phase = .read ∨ s.engine.phase = .write) ∧ s.engine.issued = false)) ∧
    (∀ p, s.demandPage = some p ↔ ∃ a w, s.pPort.phase = .held a .demand w p) ∧
    (∀ q m, s.mport = .busy q m → s.decision = none) ∧
    (s.mport = .free →
      let c := s.portRequests .c = true
      let p := s.portRequests .p = true
      let e := s.engineRequests = true
      let limited := 8 ≤ s.streak ∧ (p ∨ e)
      let demand := s.demandPage ≠ none
      (c → ¬limited → s.decision = some .consumer) ∧
      (¬(c ∧ ¬limited) → e → demand → s.decision = some .copy) ∧
      (¬(c ∧ ¬limited) → e → ¬demand → ¬p → s.decision = some .copy) ∧
      (¬(c ∧ ¬limited) → p → ¬e → s.decision = some .producer) ∧
      (¬(c ∧ ¬limited) → p → e → ¬demand → s.pointer = .copy → s.decision = some .producer) ∧
      (¬(c ∧ ¬limited) → p → e → ¬demand → s.pointer = .producer → s.decision = some .copy) ∧
      (¬c → ¬p → ¬e → s.decision = none)) ∧
    (s.decision = none → exec .grant s = .next s) ∧
    (s.decision ≠ none → ∃ t, exec .grant s = .next t ∧ t.decision = none ∧ t.freed = false ∧
      (∀ r d, exec (.memoryResponse r d) s = exec (.memoryResponse r d) t) ∧
      (s.freed = false → ∀ c, c ≠ .grant → exec c s = exec c t)) ∧
    (s.decision = none → ∀ c, c ≠ .grant → (∀ r d, c ≠ .memoryResponse r d) → exec c s = exec c { s with freed := false })

/-- R137, R138: the streak count and the pointer move at grants and at the resets alone. Where a command stands to a
grant that is due is the model's reading (log 3): from a state with `freed` set, a command other than a response leaves
both as they are, and from any other state as the grant due before it does. That a step on an empty queue is the due
grant, else a BCLK period, is the model's choice (log 3, log 4); a period leaves both as they are, but for the grants
between the events of a period in which a filter accepts (O4). -/
def Obligations.StreakAndPointerFollowGrants : Prop :=
  (∀ s t : State, exec .grant s = .next t →
    (s.decision = none → t.streak = s.streak ∧ t.pointer = s.pointer) ∧
    (s.decision = some .consumer → t.streak = min (s.streak + 1) 8 ∧ t.pointer = s.pointer) ∧
    (s.decision = some .producer → t.streak = 0 ∧ t.pointer = .producer) ∧
    (s.decision = some .copy → t.streak = 0 ∧ t.pointer = .copy)) ∧
  (∀ (c : Instr) (s t : State), c ≠ .grant → c ≠ .hardReset → (∀ arg, c ≠ .engineReset arg) → exec c s = .next t →
    (s.freed = true → (∀ r d, c ≠ .memoryResponse r d) → t.streak = s.streak ∧ t.pointer = s.pointer) ∧
    (s.freed = false ∨ (∃ r d, c = .memoryResponse r d) →
      ∃ u, exec .grant s = .next u ∧ t.streak = u.streak ∧ t.pointer = u.pointer)) ∧
  (∀ s t : State, s.pending = [] → step s = .next t →
    (s.decision ≠ none → exec .grant s = .next t) ∧
    (s.decision = none → s.drive.fsync.due = false → s.drive.frz.due = false →
      t.streak = s.streak ∧ t.pointer = s.pointer))

/-- R133, R139: a grant to a port handler whose access is no marker issues the access on the M-port at its resolved
address. The mark `freed` is the model's own (log 3). -/
def Obligations.GrantIssuesAPortAccess : Prop :=
  ∀ (s : State) (a : Access) (r : Resolution), (∀ w m, r.cls ≠ .marker w m) →
    (s.decision = some .consumer → s.cPort.phase = .pending a r → exec .grant s = .next { s with
      streak := min (s.streak + 1) 8, mport := .busy .consumer { a with addr := r.addr }, freed := false,
      cPort := { phase := .issued a r, resp := none } }.rejudge) ∧
    (s.decision = some .producer → s.pPort.phase = .pending a r → exec .grant s = .next { s with
      streak := 0, pointer := .producer, mport := .busy .producer { a with addr := r.addr }, freed := false,
      pPort := { phase := .issued a r, resp := none } }.rejudge)

/-- R51, R53, R54, R55: a commit marker at its grant: it arms an OPEN window, late at or past a cutoff in force, with
the merge-noted flag cleared, and re-arms an armed one. The mark `freed` is the model's own (log 3). -/
def Obligations.CommitMarkerAtItsGrant : Prop :=
  ∀ (s : State) (a : Access) (r : Resolution) (w : Fin 8) (tag : Word), s.decision = some .producer →
    s.pPort.phase = .pending a r → r.cls = .marker w .commit → a.wdata = [tag] →
    let i : State := { s with
      streak := 0, pointer := .producer, mport := .busy .producer { a with addr := r.addr }, freed := false,
      pPort := { phase := .issued a r, resp := none } }
    let late := s.timer.fcut ≠ 0#24 ∧ s.timer.fcut.toNat ≤ s.timer.counter.toNat
    let armed (c : CommitState) : Window := { s.window w with commit := c, armedTag := tag, armPhase := s.timer.counter }
    ((s.window w).commit = .isOpen → ¬late →
      exec .grant s = .next ((i.setWindow w (armed .armed)).setNoted w false).rejudge) ∧
    ((s.window w).commit = .isOpen → late →
      exec .grant s = .next (((i.setWindow w (armed .armedLate)).setNoted w false).record
        { kind := .markerLate, window := some w, tag := tag, phase := s.timer.counter }).rejudge) ∧
    ((s.window w).commit ≠ .isOpen →
      exec .grant s = .next (i.setWindow w (armed (s.window w).commit)).rejudge)

/-- R59, R60, R61, R94: lease markers at their grant: the bracket, LEASE_DOUBLE, and the judgement of the group at the
close of an OPEN bracket. That a write the flip releases records after the COMMIT records is read from R46 (log 21). The
mark `freed` is the model's own (log 3). -/
def Obligations.LeaseMarkersAtTheirGrant : Prop :=
  ∀ (s : State) (a : Access) (r : Resolution) (w : Fin 8), s.decision = some .consumer → s.cPort.phase = .pending a r →
    let i : State := { s with
      streak := min (s.streak + 1) 8, mport := .busy .consumer { a with addr := r.addr }, freed := false,
      cPort := { phase := .issued a r, resp := none } }
    let moved (b : Bracket) : State := i.setWindow w { s.window w with bracket := b }
    let g : Fin 4 := Fin.ofNat 4 (s.desc w).group.toNat
    let j := moved .closed
    (r.cls = .marker w .leaseOpen → (s.window w).bracket ≠ .isOpen → exec .grant s = .next (moved .isOpen).rejudge) ∧
    (r.cls = .marker w .leaseOpen → (s.window w).bracket = .isOpen → exec .grant s = .next (i.record
      { kind := .leaseDouble, window := some w, detail := 0x01#8 }).rejudge) ∧
    (r.cls = .marker w .leaseClose → (s.window w).bracket = .closed → exec .grant s = .next (i.record
      { kind := .leaseDouble, window := some w, detail := 0x02#8 }).rejudge) ∧
    (r.cls = .marker w .leaseClose → (s.window w).bracket = .revoked → exec .grant s = .next j.rejudge) ∧
    (r.cls = .marker w .leaseClose → (s.window w).bracket = .isOpen → (s.group g).state = .idle →
      exec .grant s = .next j.rejudge) ∧
    (r.cls = .marker w .leaseClose → (s.window w).bracket = .isOpen → (s.group g).state = .deferred →
      (j.groupReady g = false →
        exec .grant s = .next (j.setGroup g { s.group g with state := .idle, count := 0#4 }).rejudge) ∧
      (j.groupReady g = true → j.openMembers g ≠ [] ∨ s.freeze.latch = true → exec .grant s = .next j.rejudge) ∧
      (j.groupReady g = true → j.openMembers g = [] → s.freeze.latch = false →
        exec .grant s = .next (j.takeCommit g .close).rejudge))

/-- R114, R115, R139: a grant to the Copy Engine: the start of a copy with the page at the head of the queue, or the
burst of the present pair. The mark `freed` is the model's own (log 3). -/
def Obligations.CopyBurstsAtTheirGrant : Prop :=
  ∀ (s : State) (p : Fin 512), s.decision = some .copy →
    let d := s.desc (s.owner p)
    let offset (n : Nat) : BitVec 32 :=
      BitVec.ofNat 32 ((p.val - d.pageFirst.toNat) * d.pageSize.toNat + 32 * n)
    let base (bank : Bank) : BitVec 32 := match bank with | .a => d.bankABase | .b => d.bankBBase
    (∀ rest, s.engine.phase = .idle → s.copyQueue = p :: rest → exec .grant s = .next { s with
      streak := 0, pointer := .copy, freed := false, copyQueue := rest,
      pages := s.pages.set p.val { s.page p with state := .copying, attempts := (s.page p).attempts + 1#2 },
      engine := { s.engine with phase := .read, page := some p, pair := 0, issued := true },
      mport := .busy .copy { addr := base (s.page p).bank + offset 0, write := false, size := 2#2, blen := 3#2,
                             wdata := [] } }.rejudge) ∧
    (s.engine.phase = .read → s.engine.page = some p → exec .grant s = .next { s with
      streak := 0, pointer := .copy, freed := false, engine := { s.engine with issued := true },
      mport := .busy .copy { addr := base (s.page p).bank + offset s.engine.pair, write := false, size := 2#2,
                             blen := 3#2, wdata := [] } }.rejudge) ∧
    (s.engine.phase = .write → s.engine.page = some p → exec .grant s = .next { s with
      streak := 0, pointer := .copy, freed := false, engine := { s.engine with issued := true },
      mport := .busy .copy { addr := base (s.page p).bank.other + offset s.engine.pair, write := true, size := 2#2,
                             blen := 3#2, wdata := s.engine.buffer } }.rejudge)

/-- R34, R36: the two laws of the bridge, where an access is fixed: a consumer read of a view goes to the current copy
of its page, and a producer write of a view goes to the other copy of a page that is SYNCED or DIRTY. -/
def Obligations.TheTwoLawsAtTheGrant : Prop :=
  ∀ (s : State) (a : Access) (r : Resolution) (w : Fin 8) (p : Fin 512) (bank : Bank), s.JudgedOk →
    r.cls = .view w p bank →
    (s.decision = some .consumer → s.cPort.phase = .pending a r →
      a.write = false ∧ bank = (s.page p).bank ∧
      ∃ t, exec .grant s = .next t ∧
        t.mport = .busy .consumer { a with addr := (s.desc w).bankAddr (s.page p).bank a.addr } ∧ t.pages = s.pages) ∧
    (s.decision = some .producer → s.pPort.phase = .pending a r → a.write = true →
      ((s.page p).state = .synced ∨ (s.page p).state = .dirty) ∧ bank = (s.page p).bank.other ∧
      ∃ t, exec .grant s = .next t ∧
        t.mport = .busy .producer { a with addr := (s.desc w).bankAddr (s.page p).bank.other a.addr } ∧
        t.pages = s.pages)

/-- R13, R27, R47, R140: the memory's response to a port access with no flip pending. R103: a pending flip takes effect
at the ending of the port access, after that access's own effect; a copy burst's ending makes no flip (R100). A response
on a FREE M-port belongs to no access (the model's choice, log 2). That the access's MEMORY_ERROR comes before the
COMMIT records of the flip is read from R103 (log 21), and that a read has zero on the beats an OKAY response carries no
word for, and loses the words beyond its beats, is the model's choice (log 12). The mark `freed` is the model's own (log
3). -/
def Obligations.PortAccessEnds : Prop :=
  (∀ (s : State) (r : BusResp) (d : List Word), s.mport = .free → s.decision = none →
    exec (.memoryResponse r d) s = .next s) ∧
  (∀ (s : State) (x : Port) (a m : Access) (res : Resolution) (r : BusResp) (d : List Word),
    s.mport = .busy (match x with | .p => .producer | .c => .consumer) m → s.phaseOf x = .issued a res →
    s.pendingFlip = none →
    let beats : List Word := if a.write then [] else (List.range a.beats).map fun i => d.getD i 0#32
    let t := { s with mport := .free }.setPort x { phase := .idle, resp := some { resp := r, rdata := beats } }
    let detail : Byte := match x with | .p => 0x01#8 | .c => 0x02#8
    (r = .okay → ¬(x = .p ∧ a.write = true ∧ ∃ w p bk, res.cls = .view w p bk) →
      exec (.memoryResponse r d) s = .next t.rejudge.openDecision) ∧
    (∀ w p bk, r = .okay → x = .p → a.write = true → res.cls = .view w p bk →
      ((s.page p).state = .synced ∨ (s.page p).state = .dirty →
        exec (.memoryResponse r d) s = .next (t.setPage p { s.page p with state := .dirty }).rejudge.openDecision) ∧
      ((s.page p).state ≠ .synced → (s.page p).state ≠ .dirty → exec (.memoryResponse r d) s = .next t.rejudge.openDecision)) ∧
    (∀ w p bk, r = .error → res.cls = .view w p bk → exec (.memoryResponse r d) s = .next (t.record
      { kind := .memoryError, window := some w, detail := detail, page := some p }).rejudge.openDecision) ∧
    (∀ w m, r = .error → res.cls = .marker w m → exec (.memoryResponse r d) s = .next (t.record
      { kind := .memoryError, window := some w, detail := detail }).rejudge.openDecision) ∧
    (r = .error → (∀ w p bk, res.cls ≠ .view w p bk) → (∀ w m, res.cls ≠ .marker w m) →
      exec (.memoryResponse r d) s = .next t.rejudge.openDecision)) ∧
  (∀ (s : State) (f : TakenCommit) (m : Access) (r : BusResp) (d : List Word), s.pendingFlip = some f →
    let ended (x : Port) : State := { s with mport := .free }.endAccess x r d
    (s.mport = .busy .consumer m →
      exec (.memoryResponse r d) s = .next ({ ended .c with pendingFlip := none }.flip f).rejudge.openDecision) ∧
    (s.mport = .busy .producer m →
      exec (.memoryResponse r d) s = .next ({ ended .p with pendingFlip := none }.flip f).rejudge.openDecision) ∧
    (s.mport = .busy .copy m → ∃ t, exec (.memoryResponse r d) s = .next t ∧ t.pendingFlip = some f))

/-! ## The Copy Engine -/

/-- R115, R132: the engine moves on an OKAY response; an IDLE engine discards any response. That the pair buffer has
zero for a word the response leaves out, and drops the words beyond 8, is the model's choice (log 12). The mark `freed`
is the model's own (log 3). -/
def Obligations.CopyMovesOnOkay : Prop :=
  ∀ (s : State) (m : Access) (d : List Word), s.mport = .busy .copy m →
    (∀ r, s.engine.page = none → exec (.memoryResponse r d) s = .next { s with mport := .free }.rejudge.openDecision) ∧
    (∀ p, s.engine.page = some p → s.engine.phase = .read → exec (.memoryResponse .okay d) s = .next { s with
      mport := .free, engine := { s.engine with
        phase := .write, issued := false, buffer := (List.range 8).map fun i => d.getD i 0#32 } }.rejudge.openDecision) ∧
    (∀ p, s.engine.page = some p → s.engine.phase = .write →
      s.engine.pair + 1 < (s.desc (s.owner p)).pageSize.toNat / 32 → exec (.memoryResponse .okay d) s = .next { s with
        mport := .free, engine := { s.engine with phase := .read, pair := s.engine.pair + 1, issued := false } }.rejudge.openDecision)

/-- R8, R16, R21, R117, R122, R123, R127: the end of a copy: well in an ENABLED window, at a failed attempt, or in a
DRAINING window. That the discarded pair buffer then holds zeros and the IDLE engine's pair number is 0 (Engine.reset)
is the model's choice (log 18), and so is that a failed attempt numbered 0, which no run reaches, is retried (log 14).
The mark `freed` is the model's own (log 3). -/
def Obligations.CopyEnds : Prop :=
  ∀ (s : State) (m : Access) (d : List Word) (p : Fin 512) (w : Fin 8), s.mport = .busy .copy m →
    s.engine.page = some p → s.ownerOf p = some w →
    let i : State := { s with mport := .free, engine := Engine.reset }
    let e := s.page p
    let failed := i.record
      { kind := .memoryError, window := some w, detail := 0x03#8, page := some p, count := e.attempts.setWidth 8 }
    let drained (t : State) : State :=
      ((t.setPage p { e with state := .unused, attempts := 0#2 }).setWindow w
        { s.window w with enable := .disabled }).record { kind := .windowDisabled, window := some w }
    let last := s.engine.phase = .write ∧ (s.desc w).pageSize.toNat / 32 ≤ s.engine.pair + 1
    (last → (s.window w).enable = .enabled → exec (.memoryResponse .okay d) s =
      .next ((i.setPage p { e with state := .synced, attempts := 0#2 }).checkReady w).rejudge.openDecision) ∧
    (last → (s.window w).enable = .draining → exec (.memoryResponse .okay d) s = .next (drained i).rejudge.openDecision) ∧
    ((s.window w).enable = .enabled → e.attempts ≠ 3#2 → exec (.memoryResponse .error d) s =
      .next ({ (failed.setPage p { e with state := .stale }) with copyQueue := p :: s.copyQueue }.record
        { kind := .copyRetry, window := some w, page := some p, count := e.attempts.setWidth 8 }).rejudge.openDecision) ∧
    ((s.window w).enable = .enabled → e.attempts = 3#2 → exec (.memoryResponse .error d) s =
      .next (((failed.setPage p { e with state := .broken }).record
        { kind := .pageBroken, window := some w, page := some p, count := 3#8 }).checkReady w).rejudge.openDecision) ∧
    ((s.window w).enable = .draining → exec (.memoryResponse .error d) s = .next (drained failed).rejudge.openDecision) ∧
    (∀ (t : State) (v : Fin 8),
      ((t.window v).readyPending = true → t.pageCount v .stale = 0 → t.pageCount v .copying = 0 →
        t.checkReady v = (t.setWindow v { t.window v with readyPending := false }).record
          { kind := .windowReady, window := some v }) ∧
      ((t.window v).readyPending = false ∨ t.pageCount v .stale ≠ 0 ∨ t.pageCount v .copying ≠ 0 →
        t.checkReady v = t))

/-! ## Commit groups -/

/-- R84, R85, R88: membership, readiness, and the outcome for a group at a boundary by the first row that holds. -/
def Obligations.GroupOutcomeTable : Prop :=
  ∀ (s : State) (g : Fin 4),
    (∀ w, s.isMember g w = true ↔ (s.window w).enable = .enabled ∧ (s.desc w).group.toNat = g.val) ∧
    (s.groupReady g = true ↔
      (∃ w, s.isMember g w = true) ∧ (∀ w, s.isMember g w = true → (s.window w).commit = .armed) ∧
      ∀ f, s.pendingFlip = some f → f.group ≠ g) ∧
    (s.groupReady g = false → (s.group g).state = .idle → s.groupOutcome g = .nothing) ∧
    (s.groupReady g = false → (s.group g).state = .deferred → s.groupOutcome g = .endDeferral) ∧
    (s.groupReady g = true → s.freeze.latch = true → s.groupOutcome g = .skip) ∧
    (s.groupReady g = true → s.freeze.latch = false →
      ((∀ w, s.isMember g w = true → (s.window w).bracket ≠ .isOpen) → s.groupOutcome g = .commit) ∧
      (∀ w, s.isMember g w = true → (s.window w).bracket = .isOpen →
        ((s.group g).count.toNat < (s.group g).limit.toNat → s.groupOutcome g = .defer) ∧
        ((s.group g).limit.toNat ≤ (s.group g).count.toNat → s.groupOutcome g = .force)))

/-- R86, R88 to R93, R100, R101: a boundary at the Commit Controller, shown by the BOUNDARY action. The groups' states
and counts by their outcomes; a commit that is taken flips at once unless the access ISSUED is of the view of a member:
its windows become OPEN with their tags taken and their DIRTY pages change sides; otherwise it is the pending flip. A
forced commit revokes the OPEN brackets of its members; a window armed late is promoted; nothing else of a window
changes, and no other page. -/
def Obligations.BoundaryAtTheCommitController : Prop :=
  ∀ (s : State) (arg : Byte), s.portReady → s.Settled → s.ArbiterOk → ∃ t, exec (.boundary arg) s = .next t ∧
    let takes (g : Fin 4) : Prop := s.groupOutcome g = .commit ∨ s.groupOutcome g = .force
    let flips (w : Fin 8) : Prop := ∃ g, s.isMember g w = true ∧ takes g ∧ ¬s.FlipWaits g
    let revoked (w : Fin 8) : Prop :=
      (∃ g, s.isMember g w = true ∧ s.groupOutcome g = .force) ∧ (s.window w).bracket = .isOpen
    let turns (p : Fin 512) : Prop :=
      (s.page p).state = .dirty ∧ ∃ w, flips w ∧ (s.desc w).inRun p = true
    (∀ g, t.group g =
      match s.groupOutcome g with
      | .nothing => s.group g
      | .skip => s.group g
      | .endDeferral => { s.group g with state := .idle, count := 0#4 }
      | .commit => { s.group g with state := .idle, count := 0#4 }
      | .force => { s.group g with state := .idle, count := 0#4 }
      | .defer => { s.group g with state := .deferred, count := (s.group g).count + 1#4 }) ∧
    (∀ w, (revoked w → (t.window w).bracket = .revoked) ∧
      (¬revoked w → (t.window w).bracket = (s.window w).bracket) ∧
      (flips w → t.window w = { s.window w with
        commit := .isOpen, committedTag := (s.window w).armedTag, lastCommitFrame := s.timer.frame + 1#16,
        bracket := (t.window w).bracket }) ∧
      (¬flips w → t.window w = { s.window w with
        commit := if (s.window w).commit = .armedLate then .armed else (s.window w).commit,
        bracket := (t.window w).bracket })) ∧
    (∀ p, (turns p → t.page p = { state := .stale, bank := (s.page p).bank.other, attempts := 0#2 }) ∧
      (¬turns p → t.page p = s.page p)) ∧
    (∀ g, takes g → s.FlipWaits g → t.pendingFlip = some
      { group := g, set := s.members g, origin := if s.groupOutcome g = .force then .forced else .boundary }) ∧
    ((∀ g, takes g → ¬s.FlipWaits g) → t.pendingFlip = s.pendingFlip)

/-- R88, R91, R106, R149: a boundary met with the freeze latch set takes no commit, revokes no bracket and advances no
deferral count, shown by the BOUNDARY action. -/
def Obligations.FrozenBoundaryTakesNoCommit : Prop :=
  ∀ (s : State) (arg : Byte), s.portReady → s.Settled → s.freeze.latch = true → ∃ t, exec (.boundary arg) s = .next t ∧
    (∀ p, t.page p = s.page p) ∧ t.pendingFlip = s.pendingFlip ∧
    (∀ g, s.groupReady g = true → t.group g = s.group g) ∧
    (∀ w, (t.window w).bracket = (s.window w).bracket ∧ (t.window w).committedTag = (s.window w).committedTag ∧
      (t.window w).lastCommitFrame = (s.window w).lastCommitFrame ∧
      ((s.window w).commit ≠ .isOpen → (t.window w).commit = .armed))

/-- R100: a commit that is taken flips at once unless the access ISSUED is of the view of a window of its set. R14, R101,
R102: the flip of every window of the set that is ENABLED, its DIRTY pages joining the tail of the Copy Queue, windows
and pages ascending, and then a COMMIT record for each window, ascending. -/
def Obligations.CommitFlip : Prop :=
  (∀ (s : State) (g : Fin 4) (o : Origin),
    let set := (s.members g).filter fun w => (s.window w).commit == .armed
    let t := s.setGroup g { s.group g with state := .idle, count := 0#4 }
    let waits := ∃ x a r w p bank, s.phaseOf x = .issued a r ∧ r.cls = .view w p bank ∧ w ∈ set
    (waits → s.takeCommit g o = { t with pendingFlip := some { group := g, set := set, origin := o } }) ∧
    (¬waits → s.takeCommit g o = t.flip { group := g, set := set, origin := o })) ∧
  (∀ (s : State) (f : TakenCommit), s.WindowsOk → f.set.Pairwise (· < ·) →
    let passed := f.set.filter s.enabled
    ∃ u, u = { s with windows := u.windows, pages := u.pages, copyQueue := u.copyQueue } ∧
      (∀ w, w ∈ passed → u.window w = { s.window w with
        commit := .isOpen, committedTag := (s.window w).armedTag, lastCommitFrame := s.timer.frame }) ∧
      (∀ w, w ∉ passed → u.window w = s.window w) ∧
      (∀ w p, w ∈ passed → (s.desc w).inRun p = true → (s.page p).state = .dirty →
        u.page p = { state := .stale, bank := (s.page p).bank.other, attempts := 0#2 }) ∧
      (∀ p, (s.page p).state ≠ .dirty → u.page p = s.page p) ∧
      (∀ p, (∀ w, w ∈ passed → (s.desc w).inRun p = false) → u.page p = s.page p) ∧
      u.copyQueue = s.copyQueue ++ passed.flatMap (fun w => s.runPages w .dirty) ∧
      s.flip f = passed.foldl (fun v w => v.record
        { kind := .commit, window := some w, group := some f.group,
          detail := match f.origin with | .boundary => 0x01#8 | .forced => 0x02#8 | .close => 0x03#8,
          tag := (s.window w).armedTag, phase := (s.window w).armPhase,
          count := BitVec.ofNat 8 (min (s.runPages w .dirty).length 255) }) u)

/-! ## Window actions -/

/-- R17, whole: ENABLE is refused with REFUSED_STATE in service, and for a DISABLED window it is taken exactly where
the twelve conditions hold; a refused ENABLE changes nothing. The windows in service hold descriptors that passed. -/
def Obligations.EnableTestsTheDescriptor : Prop :=
  ∀ (s : State) (w : Fin 8), s.portReady → s.Settled → (∀ v, s.inService v → (s.desc v).usable = true) →
    ((s.window w).enable ≠ .disabled → exec (.enable (BitVec.ofNat 8 w.val)) s = .next (s.answer [0x04#8])) ∧
    ((s.window w).enable = .disabled → ¬s.EnableConditions w →
      exec (.enable (BitVec.ofNat 8 w.val)) s = .next (s.answer [0x03#8])) ∧
    ((s.window w).enable = .disabled → s.EnableConditions w → ∃ t,
      exec (.enable (BitVec.ofNat 8 w.val)) s = .next t ∧ t.mgmt = { framing := .answered, out := [0x01#8], msck := true } ∧
      t.enabled w = true)

/-- R18: what ENABLE puts in place when it is taken. -/
def Obligations.EnablePutsTheWindowInService : Prop :=
  ∀ (s : State) (w : Fin 8), s.portReady → s.Settled → (s.window w).enable = .disabled → s.enableOk w = true →
    exec (.enable (BitVec.ofNat 8 w.val)) s = .next ({
      ((s.mapPages fun p e => if (s.desc w).inRun p then { state := .stale, bank := .a, attempts := 0#2 } else e).setWindow
        w { desc := s.desc w, enable := .enabled, commit := .isOpen, armedTag := 0#32, armPhase := 0#24,
            committedTag := 0#32, lastCommitFrame := 0#16, bracket := .closed, readyPending := true }) with
      copyQueue := s.copyQueue ++ (s.desc w).run }.rejudge.answer [0x01#8])

/-- R19, R20, R103: DISABLE by the enable state, with a page of the run in flight or none. R129: so it is too between the
end of a copy and the grant that the freed M-port allows (a settled state, log 3). That WINDOW_DISABLED comes
before the records of the waiting accesses judged anew is the model's choice (log 20). -/
def Obligations.DisableByEnableState : Prop :=
  ∀ (s : State) (w : Fin 8), s.portReady → s.Settled →
    let act : Instr := .disable (BitVec.ofNat 8 w.val)
    let out (next : EnableState) : State := {
      ((s.mapPages fun p e =>
        if (s.desc w).inRun p && s.engine.page != some p then { e with state := .unused, attempts := 0#2 } else e
        ).setWindow w { s.window w with
          enable := next, commit := .isOpen, bracket := .closed, readyPending := false }) with
      copyQueue := s.copyQueue.filter (fun p => !(s.desc w).inRun p)
      pendingFlip := s.pendingFlip.map fun f => { f with set := f.set.filter (· ≠ w) } }
    let inFlight := ∃ p, s.engine.page = some p ∧ (s.desc w).inRun p = true
    ((s.window w).enable = .disabled → exec act s = .next (s.answer [0x01#8])) ∧
    ((s.window w).enable = .draining → exec act s = .next (s.answer [0x02#8])) ∧
    ((s.window w).enable = .enabled → inFlight → exec act s = .next ((out .draining).rejudge.answer [0x01#8])) ∧
    ((s.window w).enable = .enabled → ¬inFlight → exec act s =
      .next (((out .disabled).record { kind := .windowDisabled, window := some w }).rejudge.answer [0x01#8]))

/-- R22, R98: RESYNC and DISARM by the enable state. -/
def Obligations.ResyncAndDisarm : Prop :=
  ∀ (s : State) (w : Fin 8), s.portReady → s.Settled →
    let g : Fin 4 := Fin.ofNat 4 (s.desc w).group.toNat
    let opened : State := s.setWindow w { s.window w with commit := .isOpen }
    let damaged := s.pagesIn (s.desc w) .broken
    let resync : Instr := .resync (BitVec.ofNat 8 w.val)
    let disarm : Instr := .disarm (BitVec.ofNat 8 w.val)
    ((s.window w).enable ≠ .enabled →
      exec resync s = .next (s.answer [0x04#8]) ∧ exec disarm s = .next (s.answer [0x04#8])) ∧
    ((s.window w).enable = .enabled → exec resync s = .next ({
      ((s.mapPages fun p e =>
        if (s.desc w).inRun p && e.state == PageState.broken then { e with state := .stale, attempts := 0#2 } else e).setWindow w
          { s.window w with readyPending := (s.window w).readyPending || !damaged.isEmpty }) with
      copyQueue := s.copyQueue ++ damaged }.rejudge.answer [0x01#8])) ∧
    ((s.window w).enable = .enabled → (s.window w).commit = .isOpen → exec disarm s = .next (s.answer [0x01#8])) ∧
    ((s.window w).enable = .enabled → (s.window w).commit ≠ .isOpen →
      ((s.group g).state = .idle → exec disarm s = .next (opened.rejudge.answer [0x01#8])) ∧
      ((s.group g).state = .deferred → exec disarm s =
        .next ((opened.setGroup g { s.group g with state := .idle, count := 0#4 }).rejudge.answer [0x01#8])))

/-! ## Freeze -/

/-- R146, whole: the FREEZE action, in every state of the Freeze Unit and for every argument. -/
def Obligations.FreezeSetsTheCommandFlag : Prop :=
  ∀ (s : State) (arg : Byte), s.portReady → s.Settled →
    (s.freeze.command = false → ∃ t, exec (.freeze arg) s = .next t ∧
      t = ({ s with freeze := { s.freeze with command := true, latch := true } }.arrive
        { kind := .frozen, detail := 0x02#8, frame := s.timer.frame }).answer [0x01#8] ∧
      t.freeze = { s.freeze with command := true, latch := true }) ∧
    (s.freeze.command = true → exec (.freeze arg) s = .next (s.answer [0x01#8]))

/-- R145: an accepted rise of FRZ; every commit decision after it meets the latch. R148: RELEASE by the line level and
the latch; with the latch clear and the line high, which no run reaches, OK with no effect is the model's reading of
R177 (log 19). -/
def Obligations.LineRiseAndRelease : Prop :=
  (∀ s : State, s.Settled → s.frz.accepted = false →
    let t : State := { s with
      frz := { pin := true, accepted := true, run := 0 },
      freeze := { s.freeze with level := true, line := true, latch := true } }
    (s.freeze.line = false →
      exec .frzRise s = .next (t.arrive { kind := .frozen, detail := 0x01#8, frame := s.timer.frame })) ∧
    (s.freeze.line = true → exec .frzRise s = .next t) ∧
    (∀ u, exec .frzRise s = .next u → u.freeze = t.freeze ∧ ∀ g, u.groupReady g = true → u.groupOutcome g = .skip)) ∧
  (∀ (s : State) (arg : Byte), s.portReady → s.Settled →
    (s.freeze.latch = true → s.freeze.level = true → exec (.release arg) s = .next (s.answer [0x05#8])) ∧
    (s.freeze.latch = true → s.freeze.level = false → exec (.release arg) s =
      .next (({ s with freeze := { latch := false, line := false, command := false, level := false } }.arrive
        { kind := .released, frame := s.timer.frame }).answer [0x01#8])) ∧
    (s.freeze.latch = false → exec (.release arg) s = .next (s.answer [0x01#8])))

/-- R147, whole: an accepted fall of FRZ lowers the level alone; from it a RELEASE is no longer refused, and a rise
before any RELEASE records nothing where the LINE flag is set. -/
def Obligations.LineFallLowersTheLevel : Prop :=
  ∀ s : State, s.Settled → s.frz.accepted = true → ∃ t, exec .frzFall s = .next t ∧
    t = { s with frz := { pin := false, accepted := false, run := 0 }, freeze := { s.freeze with level := false } } ∧
    (s.portReady → ∀ arg, exec (.release arg) t ≠ .next (t.answer [0x05#8])) ∧
    (s.freeze.line = true → ∃ u, exec .frzRise t = .next u ∧ u.events = s.events ∧ u.overrun = s.overrun)

/-! ## The laws that every step keeps -/

/-- R154, R155, R161; R144; R86; R168, R179: the Event Queue, the Freeze Unit, the deferral counts, and the management
port. -/
def Obligations.EventFreezeAndGroupLawsAreKept : Prop :=
  (∀ s t : State, s.EventsOk → step s = .next t → t.EventsOk) ∧
  (∀ s t : State, s.FreezeOk → step s = .next t → t.FreezeOk) ∧
  (∀ s t : State, s.GroupsOk → step s = .next t → t.GroupsOk) ∧
  (∀ s t : State, s.mgmt.Ok → step s = .next t → t.mgmt.Ok)

/-- R66 to R71: the Frame Timer. -/
def Obligations.TimerLawsAreKept : Prop := ∀ s t : State, s.timer.Ok → step s = .next t → t.timer.Ok

/-- R25, R28, R45: the port handlers. R29, R119: every waiting access stands as the bridge's present state judges it,
and a demanded STALE page is at the head of the Copy Queue. -/
def Obligations.PortAndJudgementLawsAreKept : Prop :=
  (∀ s t : State, s.PortsOk → step s = .next t → t.PortsOk) ∧
  (∀ s t : State, s.JudgedOk → step s = .next t → t.JudgedOk) ∧
  (∀ s t : State, s.DemandOk → step s = .next t → t.DemandOk)

/-- R133, R135; R100, R103: the M-port and its holder, and the pending flip. The mark `freed` is the model's own (log
3). -/
def Obligations.ArbiterAndFlipLawsAreKept : Prop :=
  (∀ s t : State, s.Inv → step s = .next t → t.ArbiterOk) ∧ (∀ s t : State, s.Inv → step s = .next t → t.FlipOk)

/-- R4 to R8, R10, R17 to R21: the windows. -/
def Obligations.WindowLawsAreKept : Prop := ∀ s t : State, s.Inv → step s = .next t → t.WindowsOk

/-- R10, R11, R15, R16, R110, R113: the Page Map, the Copy Queue and the Copy Engine. That the pair number is 0 while the
engine is IDLE is the model's choice (log 18). -/
def Obligations.PageLawsAreKept : Prop := ∀ s t : State, s.Inv → step s = .next t → t.PagesOk

/-! ## The records of a boundary -/

/-- R88 to R93: a boundary delivered, in order: the groups in ascending number, each on its outcome as the boundary
arrived, with FREEZE_SKIP, COMMIT_DEFERRED, or COMMIT_FORCED before its COMMIT records; the promotion of the windows armed
late; the hold count; and the waiting accesses judged anew. -/
def Obligations.BoundaryRecordsInOrder : Prop :=
  (∀ s : State,
    let judged := ([0, 1, 2, 3] : List (Fin 4)).foldl (fun (t : State) (g : Fin 4) =>
      let x := t.group g
      match s.groupOutcome g with
      | .nothing => t
      | .endDeferral => t.setGroup g { x with state := .idle, count := 0#4 }
      | .skip => t.record { kind := .freezeSkip, group := some g, count := x.count.setWidth 8 }
      | .commit => t.takeCommit g .boundary
      | .defer => (t.setGroup g { x with state := .deferred, count := x.count + 1#4 }).record
          { kind := .commitDeferred, group := some g, count := (x.count + 1#4).setWidth 8 }
      | .force => (((t.openMembers g).foldl (fun u w => u.setWindow w { u.window w with bracket := .revoked }) t).record
          { kind := .commitForced, group := some g, detail := memberBitmap (t.openMembers g),
            count := x.count.setWidth 8 }).takeCommit g .forced) s
    s.deliver = ((judged.mapWindows fun w => if w.commit = .armedLate then { w with commit := .armed } else w).holdBoundary
      s.boundaryTakes).rejudge) ∧
  (∀ (ws : List (Fin 8)) (w : Fin 8), (memberBitmap ws).getLsbD w.val = ws.contains w) ∧
  (∀ (s : State) (g : Fin 4) (w : Fin 8),
    w ∈ s.openMembers g ↔ s.isMember g w = true ∧ (s.window w).bracket = .isOpen)
end

