-- ==== Sys2Proof/Laws/State.lean ====
section
/-! SUPPORT. State laws: one lemma per field per update of the state, so that no proof unfolds a record update, and
what each update writes. -/

namespace Sys2Proof.Laws

open Sys2Proof.Machine

/-! ## `setWindow` -/

@[simp] theorem setWindow_pages (s : State) (w : Fin 8) (x : Window) : (s.setWindow w x).pages = s.pages := rfl
@[simp] theorem setWindow_groups (s : State) (w : Fin 8) (x : Window) : (s.setWindow w x).groups = s.groups := rfl
@[simp] theorem setWindow_pendingFlip (s : State) (w : Fin 8) (x : Window) : (s.setWindow w x).pendingFlip = s.pendingFlip :=
  rfl
@[simp] theorem setWindow_pPort (s : State) (w : Fin 8) (x : Window) : (s.setWindow w x).pPort = s.pPort := rfl
@[simp] theorem setWindow_cPort (s : State) (w : Fin 8) (x : Window) : (s.setWindow w x).cPort = s.cPort := rfl
@[simp] theorem setWindow_holdCount (s : State) (w : Fin 8) (x : Window) : (s.setWindow w x).holdCount = s.holdCount :=
  rfl
@[simp] theorem setWindow_holdMax (s : State) (w : Fin 8) (x : Window) : (s.setWindow w x).holdMax = s.holdMax := rfl
@[simp] theorem setWindow_mergeNoted (s : State) (w : Fin 8) (x : Window) : (s.setWindow w x).mergeNoted = s.mergeNoted :=
  rfl
@[simp] theorem setWindow_copyQueue (s : State) (w : Fin 8) (x : Window) : (s.setWindow w x).copyQueue = s.copyQueue :=
  rfl
@[simp] theorem setWindow_engine (s : State) (w : Fin 8) (x : Window) : (s.setWindow w x).engine = s.engine := rfl
@[simp] theorem setWindow_mport (s : State) (w : Fin 8) (x : Window) : (s.setWindow w x).mport = s.mport := rfl
@[simp] theorem setWindow_freed (s : State) (w : Fin 8) (x : Window) : (s.setWindow w x).freed = s.freed := rfl
@[simp] theorem setWindow_streak (s : State) (w : Fin 8) (x : Window) : (s.setWindow w x).streak = s.streak := rfl
@[simp] theorem setWindow_pointer (s : State) (w : Fin 8) (x : Window) : (s.setWindow w x).pointer = s.pointer := rfl
@[simp] theorem setWindow_timer (s : State) (w : Fin 8) (x : Window) : (s.setWindow w x).timer = s.timer := rfl
@[simp] theorem setWindow_fsync (s : State) (w : Fin 8) (x : Window) : (s.setWindow w x).fsync = s.fsync := rfl
@[simp] theorem setWindow_frz (s : State) (w : Fin 8) (x : Window) : (s.setWindow w x).frz = s.frz := rfl
@[simp] theorem setWindow_freeze (s : State) (w : Fin 8) (x : Window) : (s.setWindow w x).freeze = s.freeze := rfl
@[simp] theorem setWindow_events (s : State) (w : Fin 8) (x : Window) : (s.setWindow w x).events = s.events := rfl
@[simp] theorem setWindow_overrun (s : State) (w : Fin 8) (x : Window) : (s.setWindow w x).overrun = s.overrun := rfl
@[simp] theorem setWindow_evmask (s : State) (w : Fin 8) (x : Window) : (s.setWindow w x).evmask = s.evmask := rfl
@[simp] theorem setWindow_irqEnable (s : State) (w : Fin 8) (x : Window) : (s.setWindow w x).irqEnable = s.irqEnable :=
  rfl
@[simp] theorem setWindow_mgmt (s : State) (w : Fin 8) (x : Window) : (s.setWindow w x).mgmt = s.mgmt := rfl
@[simp] theorem setWindow_freeCount (s : State) (w : Fin 8) (x : Window) : (s.setWindow w x).freeCount = s.freeCount :=
  rfl
@[simp] theorem setWindow_pending (s : State) (w : Fin 8) (x : Window) : (s.setWindow w x).pending = s.pending := rfl
@[simp] theorem setWindow_board (s : State) (w : Fin 8) (x : Window) : (s.setWindow w x).board = s.board := rfl

/-! ## `mapWindows` -/

@[simp] theorem mapWindows_pages (s : State) (f : Window → Window) : (s.mapWindows f).pages = s.pages := rfl
@[simp] theorem mapWindows_groups (s : State) (f : Window → Window) : (s.mapWindows f).groups = s.groups := rfl
@[simp] theorem mapWindows_pendingFlip (s : State) (f : Window → Window) : (s.mapWindows f).pendingFlip = s.pendingFlip :=
  rfl
@[simp] theorem mapWindows_pPort (s : State) (f : Window → Window) : (s.mapWindows f).pPort = s.pPort := rfl
@[simp] theorem mapWindows_cPort (s : State) (f : Window → Window) : (s.mapWindows f).cPort = s.cPort := rfl
@[simp] theorem mapWindows_holdCount (s : State) (f : Window → Window) : (s.mapWindows f).holdCount = s.holdCount :=
  rfl
@[simp] theorem mapWindows_holdMax (s : State) (f : Window → Window) : (s.mapWindows f).holdMax = s.holdMax := rfl
@[simp] theorem mapWindows_mergeNoted (s : State) (f : Window → Window) : (s.mapWindows f).mergeNoted = s.mergeNoted :=
  rfl
@[simp] theorem mapWindows_copyQueue (s : State) (f : Window → Window) : (s.mapWindows f).copyQueue = s.copyQueue :=
  rfl
@[simp] theorem mapWindows_engine (s : State) (f : Window → Window) : (s.mapWindows f).engine = s.engine := rfl
@[simp] theorem mapWindows_mport (s : State) (f : Window → Window) : (s.mapWindows f).mport = s.mport := rfl
@[simp] theorem mapWindows_freed (s : State) (f : Window → Window) : (s.mapWindows f).freed = s.freed := rfl
@[simp] theorem mapWindows_streak (s : State) (f : Window → Window) : (s.mapWindows f).streak = s.streak := rfl
@[simp] theorem mapWindows_pointer (s : State) (f : Window → Window) : (s.mapWindows f).pointer = s.pointer := rfl
@[simp] theorem mapWindows_timer (s : State) (f : Window → Window) : (s.mapWindows f).timer = s.timer := rfl
@[simp] theorem mapWindows_fsync (s : State) (f : Window → Window) : (s.mapWindows f).fsync = s.fsync := rfl
@[simp] theorem mapWindows_frz (s : State) (f : Window → Window) : (s.mapWindows f).frz = s.frz := rfl
@[simp] theorem mapWindows_freeze (s : State) (f : Window → Window) : (s.mapWindows f).freeze = s.freeze := rfl
@[simp] theorem mapWindows_events (s : State) (f : Window → Window) : (s.mapWindows f).events = s.events := rfl
@[simp] theorem mapWindows_overrun (s : State) (f : Window → Window) : (s.mapWindows f).overrun = s.overrun := rfl
@[simp] theorem mapWindows_evmask (s : State) (f : Window → Window) : (s.mapWindows f).evmask = s.evmask := rfl
@[simp] theorem mapWindows_irqEnable (s : State) (f : Window → Window) : (s.mapWindows f).irqEnable = s.irqEnable :=
  rfl
@[simp] theorem mapWindows_mgmt (s : State) (f : Window → Window) : (s.mapWindows f).mgmt = s.mgmt := rfl
@[simp] theorem mapWindows_freeCount (s : State) (f : Window → Window) : (s.mapWindows f).freeCount = s.freeCount :=
  rfl
@[simp] theorem mapWindows_pending (s : State) (f : Window → Window) : (s.mapWindows f).pending = s.pending := rfl
@[simp] theorem mapWindows_board (s : State) (f : Window → Window) : (s.mapWindows f).board = s.board := rfl

/-! ## `setPage` -/

@[simp] theorem setPage_windows (s : State) (p : Fin 512) (e : PageEntry) : (s.setPage p e).windows = s.windows := rfl
@[simp] theorem setPage_groups (s : State) (p : Fin 512) (e : PageEntry) : (s.setPage p e).groups = s.groups := rfl
@[simp] theorem setPage_pendingFlip (s : State) (p : Fin 512) (e : PageEntry) : (s.setPage p e).pendingFlip = s.pendingFlip :=
  rfl
@[simp] theorem setPage_pPort (s : State) (p : Fin 512) (e : PageEntry) : (s.setPage p e).pPort = s.pPort := rfl
@[simp] theorem setPage_cPort (s : State) (p : Fin 512) (e : PageEntry) : (s.setPage p e).cPort = s.cPort := rfl
@[simp] theorem setPage_holdCount (s : State) (p : Fin 512) (e : PageEntry) : (s.setPage p e).holdCount = s.holdCount :=
  rfl
@[simp] theorem setPage_holdMax (s : State) (p : Fin 512) (e : PageEntry) : (s.setPage p e).holdMax = s.holdMax := rfl
@[simp] theorem setPage_mergeNoted (s : State) (p : Fin 512) (e : PageEntry) : (s.setPage p e).mergeNoted = s.mergeNoted :=
  rfl
@[simp] theorem setPage_copyQueue (s : State) (p : Fin 512) (e : PageEntry) : (s.setPage p e).copyQueue = s.copyQueue :=
  rfl
@[simp] theorem setPage_engine (s : State) (p : Fin 512) (e : PageEntry) : (s.setPage p e).engine = s.engine := rfl
@[simp] theorem setPage_mport (s : State) (p : Fin 512) (e : PageEntry) : (s.setPage p e).mport = s.mport := rfl
@[simp] theorem setPage_freed (s : State) (p : Fin 512) (e : PageEntry) : (s.setPage p e).freed = s.freed := rfl
@[simp] theorem setPage_streak (s : State) (p : Fin 512) (e : PageEntry) : (s.setPage p e).streak = s.streak := rfl
@[simp] theorem setPage_pointer (s : State) (p : Fin 512) (e : PageEntry) : (s.setPage p e).pointer = s.pointer := rfl
@[simp] theorem setPage_timer (s : State) (p : Fin 512) (e : PageEntry) : (s.setPage p e).timer = s.timer := rfl
@[simp] theorem setPage_fsync (s : State) (p : Fin 512) (e : PageEntry) : (s.setPage p e).fsync = s.fsync := rfl
@[simp] theorem setPage_frz (s : State) (p : Fin 512) (e : PageEntry) : (s.setPage p e).frz = s.frz := rfl
@[simp] theorem setPage_freeze (s : State) (p : Fin 512) (e : PageEntry) : (s.setPage p e).freeze = s.freeze := rfl
@[simp] theorem setPage_events (s : State) (p : Fin 512) (e : PageEntry) : (s.setPage p e).events = s.events := rfl
@[simp] theorem setPage_overrun (s : State) (p : Fin 512) (e : PageEntry) : (s.setPage p e).overrun = s.overrun := rfl
@[simp] theorem setPage_evmask (s : State) (p : Fin 512) (e : PageEntry) : (s.setPage p e).evmask = s.evmask := rfl
@[simp] theorem setPage_irqEnable (s : State) (p : Fin 512) (e : PageEntry) : (s.setPage p e).irqEnable = s.irqEnable :=
  rfl
@[simp] theorem setPage_mgmt (s : State) (p : Fin 512) (e : PageEntry) : (s.setPage p e).mgmt = s.mgmt := rfl
@[simp] theorem setPage_freeCount (s : State) (p : Fin 512) (e : PageEntry) : (s.setPage p e).freeCount = s.freeCount :=
  rfl
@[simp] theorem setPage_pending (s : State) (p : Fin 512) (e : PageEntry) : (s.setPage p e).pending = s.pending := rfl
@[simp] theorem setPage_board (s : State) (p : Fin 512) (e : PageEntry) : (s.setPage p e).board = s.board := rfl

/-! ## `mapPages` -/

@[simp] theorem mapPages_windows (s : State) (f : Fin 512 → PageEntry → PageEntry) : (s.mapPages f).windows = s.windows :=
  rfl
@[simp] theorem mapPages_groups (s : State) (f : Fin 512 → PageEntry → PageEntry) : (s.mapPages f).groups = s.groups :=
  rfl
@[simp] theorem mapPages_pendingFlip (s : State) (f : Fin 512 → PageEntry → PageEntry) : (s.mapPages f).pendingFlip = s.pendingFlip :=
  rfl
@[simp] theorem mapPages_pPort (s : State) (f : Fin 512 → PageEntry → PageEntry) : (s.mapPages f).pPort = s.pPort :=
  rfl
@[simp] theorem mapPages_cPort (s : State) (f : Fin 512 → PageEntry → PageEntry) : (s.mapPages f).cPort = s.cPort :=
  rfl
@[simp] theorem mapPages_holdCount (s : State) (f : Fin 512 → PageEntry → PageEntry) : (s.mapPages f).holdCount = s.holdCount :=
  rfl
@[simp] theorem mapPages_holdMax (s : State) (f : Fin 512 → PageEntry → PageEntry) : (s.mapPages f).holdMax = s.holdMax :=
  rfl
@[simp] theorem mapPages_mergeNoted (s : State) (f : Fin 512 → PageEntry → PageEntry) : (s.mapPages f).mergeNoted = s.mergeNoted :=
  rfl
@[simp] theorem mapPages_copyQueue (s : State) (f : Fin 512 → PageEntry → PageEntry) : (s.mapPages f).copyQueue = s.copyQueue :=
  rfl
@[simp] theorem mapPages_engine (s : State) (f : Fin 512 → PageEntry → PageEntry) : (s.mapPages f).engine = s.engine :=
  rfl
@[simp] theorem mapPages_mport (s : State) (f : Fin 512 → PageEntry → PageEntry) : (s.mapPages f).mport = s.mport :=
  rfl
@[simp] theorem mapPages_freed (s : State) (f : Fin 512 → PageEntry → PageEntry) : (s.mapPages f).freed = s.freed :=
  rfl
@[simp] theorem mapPages_streak (s : State) (f : Fin 512 → PageEntry → PageEntry) : (s.mapPages f).streak = s.streak :=
  rfl
@[simp] theorem mapPages_pointer (s : State) (f : Fin 512 → PageEntry → PageEntry) : (s.mapPages f).pointer = s.pointer :=
  rfl
@[simp] theorem mapPages_timer (s : State) (f : Fin 512 → PageEntry → PageEntry) : (s.mapPages f).timer = s.timer :=
  rfl
@[simp] theorem mapPages_fsync (s : State) (f : Fin 512 → PageEntry → PageEntry) : (s.mapPages f).fsync = s.fsync :=
  rfl
@[simp] theorem mapPages_frz (s : State) (f : Fin 512 → PageEntry → PageEntry) : (s.mapPages f).frz = s.frz := rfl
@[simp] theorem mapPages_freeze (s : State) (f : Fin 512 → PageEntry → PageEntry) : (s.mapPages f).freeze = s.freeze :=
  rfl
@[simp] theorem mapPages_events (s : State) (f : Fin 512 → PageEntry → PageEntry) : (s.mapPages f).events = s.events :=
  rfl
@[simp] theorem mapPages_overrun (s : State) (f : Fin 512 → PageEntry → PageEntry) : (s.mapPages f).overrun = s.overrun :=
  rfl
@[simp] theorem mapPages_evmask (s : State) (f : Fin 512 → PageEntry → PageEntry) : (s.mapPages f).evmask = s.evmask :=
  rfl
@[simp] theorem mapPages_irqEnable (s : State) (f : Fin 512 → PageEntry → PageEntry) : (s.mapPages f).irqEnable = s.irqEnable :=
  rfl
@[simp] theorem mapPages_mgmt (s : State) (f : Fin 512 → PageEntry → PageEntry) : (s.mapPages f).mgmt = s.mgmt := rfl
@[simp] theorem mapPages_freeCount (s : State) (f : Fin 512 → PageEntry → PageEntry) : (s.mapPages f).freeCount = s.freeCount :=
  rfl
@[simp] theorem mapPages_pending (s : State) (f : Fin 512 → PageEntry → PageEntry) : (s.mapPages f).pending = s.pending :=
  rfl
@[simp] theorem mapPages_board (s : State) (f : Fin 512 → PageEntry → PageEntry) : (s.mapPages f).board = s.board :=
  rfl

/-! ## `setGroup` -/

@[simp] theorem setGroup_windows (s : State) (g : Fin 4) (x : Group) : (s.setGroup g x).windows = s.windows := rfl
@[simp] theorem setGroup_pages (s : State) (g : Fin 4) (x : Group) : (s.setGroup g x).pages = s.pages := rfl
@[simp] theorem setGroup_pendingFlip (s : State) (g : Fin 4) (x : Group) : (s.setGroup g x).pendingFlip = s.pendingFlip :=
  rfl
@[simp] theorem setGroup_pPort (s : State) (g : Fin 4) (x : Group) : (s.setGroup g x).pPort = s.pPort := rfl
@[simp] theorem setGroup_cPort (s : State) (g : Fin 4) (x : Group) : (s.setGroup g x).cPort = s.cPort := rfl
@[simp] theorem setGroup_holdCount (s : State) (g : Fin 4) (x : Group) : (s.setGroup g x).holdCount = s.holdCount :=
  rfl
@[simp] theorem setGroup_holdMax (s : State) (g : Fin 4) (x : Group) : (s.setGroup g x).holdMax = s.holdMax := rfl
@[simp] theorem setGroup_mergeNoted (s : State) (g : Fin 4) (x : Group) : (s.setGroup g x).mergeNoted = s.mergeNoted :=
  rfl
@[simp] theorem setGroup_copyQueue (s : State) (g : Fin 4) (x : Group) : (s.setGroup g x).copyQueue = s.copyQueue :=
  rfl
@[simp] theorem setGroup_engine (s : State) (g : Fin 4) (x : Group) : (s.setGroup g x).engine = s.engine := rfl
@[simp] theorem setGroup_mport (s : State) (g : Fin 4) (x : Group) : (s.setGroup g x).mport = s.mport := rfl
@[simp] theorem setGroup_freed (s : State) (g : Fin 4) (x : Group) : (s.setGroup g x).freed = s.freed := rfl
@[simp] theorem setGroup_streak (s : State) (g : Fin 4) (x : Group) : (s.setGroup g x).streak = s.streak := rfl
@[simp] theorem setGroup_pointer (s : State) (g : Fin 4) (x : Group) : (s.setGroup g x).pointer = s.pointer := rfl
@[simp] theorem setGroup_timer (s : State) (g : Fin 4) (x : Group) : (s.setGroup g x).timer = s.timer := rfl
@[simp] theorem setGroup_fsync (s : State) (g : Fin 4) (x : Group) : (s.setGroup g x).fsync = s.fsync := rfl
@[simp] theorem setGroup_frz (s : State) (g : Fin 4) (x : Group) : (s.setGroup g x).frz = s.frz := rfl
@[simp] theorem setGroup_freeze (s : State) (g : Fin 4) (x : Group) : (s.setGroup g x).freeze = s.freeze := rfl
@[simp] theorem setGroup_events (s : State) (g : Fin 4) (x : Group) : (s.setGroup g x).events = s.events := rfl
@[simp] theorem setGroup_overrun (s : State) (g : Fin 4) (x : Group) : (s.setGroup g x).overrun = s.overrun := rfl
@[simp] theorem setGroup_evmask (s : State) (g : Fin 4) (x : Group) : (s.setGroup g x).evmask = s.evmask := rfl
@[simp] theorem setGroup_irqEnable (s : State) (g : Fin 4) (x : Group) : (s.setGroup g x).irqEnable = s.irqEnable :=
  rfl
@[simp] theorem setGroup_mgmt (s : State) (g : Fin 4) (x : Group) : (s.setGroup g x).mgmt = s.mgmt := rfl
@[simp] theorem setGroup_freeCount (s : State) (g : Fin 4) (x : Group) : (s.setGroup g x).freeCount = s.freeCount :=
  rfl
@[simp] theorem setGroup_pending (s : State) (g : Fin 4) (x : Group) : (s.setGroup g x).pending = s.pending := rfl
@[simp] theorem setGroup_board (s : State) (g : Fin 4) (x : Group) : (s.setGroup g x).board = s.board := rfl

/-! ## `setNoted` -/

@[simp] theorem setNoted_windows (s : State) (w : Fin 8) (b : Bool) : (s.setNoted w b).windows = s.windows := rfl
@[simp] theorem setNoted_pages (s : State) (w : Fin 8) (b : Bool) : (s.setNoted w b).pages = s.pages := rfl
@[simp] theorem setNoted_groups (s : State) (w : Fin 8) (b : Bool) : (s.setNoted w b).groups = s.groups := rfl
@[simp] theorem setNoted_pendingFlip (s : State) (w : Fin 8) (b : Bool) : (s.setNoted w b).pendingFlip = s.pendingFlip :=
  rfl
@[simp] theorem setNoted_pPort (s : State) (w : Fin 8) (b : Bool) : (s.setNoted w b).pPort = s.pPort := rfl
@[simp] theorem setNoted_cPort (s : State) (w : Fin 8) (b : Bool) : (s.setNoted w b).cPort = s.cPort := rfl
@[simp] theorem setNoted_holdCount (s : State) (w : Fin 8) (b : Bool) : (s.setNoted w b).holdCount = s.holdCount :=
  rfl
@[simp] theorem setNoted_holdMax (s : State) (w : Fin 8) (b : Bool) : (s.setNoted w b).holdMax = s.holdMax := rfl
@[simp] theorem setNoted_copyQueue (s : State) (w : Fin 8) (b : Bool) : (s.setNoted w b).copyQueue = s.copyQueue :=
  rfl
@[simp] theorem setNoted_engine (s : State) (w : Fin 8) (b : Bool) : (s.setNoted w b).engine = s.engine := rfl
@[simp] theorem setNoted_mport (s : State) (w : Fin 8) (b : Bool) : (s.setNoted w b).mport = s.mport := rfl
@[simp] theorem setNoted_freed (s : State) (w : Fin 8) (b : Bool) : (s.setNoted w b).freed = s.freed := rfl
@[simp] theorem setNoted_streak (s : State) (w : Fin 8) (b : Bool) : (s.setNoted w b).streak = s.streak := rfl
@[simp] theorem setNoted_pointer (s : State) (w : Fin 8) (b : Bool) : (s.setNoted w b).pointer = s.pointer := rfl
@[simp] theorem setNoted_timer (s : State) (w : Fin 8) (b : Bool) : (s.setNoted w b).timer = s.timer := rfl
@[simp] theorem setNoted_fsync (s : State) (w : Fin 8) (b : Bool) : (s.setNoted w b).fsync = s.fsync := rfl
@[simp] theorem setNoted_frz (s : State) (w : Fin 8) (b : Bool) : (s.setNoted w b).frz = s.frz := rfl
@[simp] theorem setNoted_freeze (s : State) (w : Fin 8) (b : Bool) : (s.setNoted w b).freeze = s.freeze := rfl
@[simp] theorem setNoted_events (s : State) (w : Fin 8) (b : Bool) : (s.setNoted w b).events = s.events := rfl
@[simp] theorem setNoted_overrun (s : State) (w : Fin 8) (b : Bool) : (s.setNoted w b).overrun = s.overrun := rfl
@[simp] theorem setNoted_evmask (s : State) (w : Fin 8) (b : Bool) : (s.setNoted w b).evmask = s.evmask := rfl
@[simp] theorem setNoted_irqEnable (s : State) (w : Fin 8) (b : Bool) : (s.setNoted w b).irqEnable = s.irqEnable :=
  rfl
@[simp] theorem setNoted_mgmt (s : State) (w : Fin 8) (b : Bool) : (s.setNoted w b).mgmt = s.mgmt := rfl
@[simp] theorem setNoted_freeCount (s : State) (w : Fin 8) (b : Bool) : (s.setNoted w b).freeCount = s.freeCount :=
  rfl
@[simp] theorem setNoted_pending (s : State) (w : Fin 8) (b : Bool) : (s.setNoted w b).pending = s.pending := rfl
@[simp] theorem setNoted_board (s : State) (w : Fin 8) (b : Bool) : (s.setNoted w b).board = s.board := rfl

/-! ## `setTimer` -/

@[simp] theorem setTimer_windows (s : State) (t : Timer) : (s.setTimer t).windows = s.windows := rfl
@[simp] theorem setTimer_pages (s : State) (t : Timer) : (s.setTimer t).pages = s.pages := rfl
@[simp] theorem setTimer_groups (s : State) (t : Timer) : (s.setTimer t).groups = s.groups := rfl
@[simp] theorem setTimer_pendingFlip (s : State) (t : Timer) : (s.setTimer t).pendingFlip = s.pendingFlip := rfl
@[simp] theorem setTimer_pPort (s : State) (t : Timer) : (s.setTimer t).pPort = s.pPort := rfl
@[simp] theorem setTimer_cPort (s : State) (t : Timer) : (s.setTimer t).cPort = s.cPort := rfl
@[simp] theorem setTimer_holdCount (s : State) (t : Timer) : (s.setTimer t).holdCount = s.holdCount := rfl
@[simp] theorem setTimer_holdMax (s : State) (t : Timer) : (s.setTimer t).holdMax = s.holdMax := rfl
@[simp] theorem setTimer_mergeNoted (s : State) (t : Timer) : (s.setTimer t).mergeNoted = s.mergeNoted := rfl
@[simp] theorem setTimer_copyQueue (s : State) (t : Timer) : (s.setTimer t).copyQueue = s.copyQueue := rfl
@[simp] theorem setTimer_engine (s : State) (t : Timer) : (s.setTimer t).engine = s.engine := rfl
@[simp] theorem setTimer_mport (s : State) (t : Timer) : (s.setTimer t).mport = s.mport := rfl
@[simp] theorem setTimer_freed (s : State) (t : Timer) : (s.setTimer t).freed = s.freed := rfl
@[simp] theorem setTimer_streak (s : State) (t : Timer) : (s.setTimer t).streak = s.streak := rfl
@[simp] theorem setTimer_pointer (s : State) (t : Timer) : (s.setTimer t).pointer = s.pointer := rfl
@[simp] theorem setTimer_fsync (s : State) (t : Timer) : (s.setTimer t).fsync = s.fsync := rfl
@[simp] theorem setTimer_frz (s : State) (t : Timer) : (s.setTimer t).frz = s.frz := rfl
@[simp] theorem setTimer_freeze (s : State) (t : Timer) : (s.setTimer t).freeze = s.freeze := rfl
@[simp] theorem setTimer_events (s : State) (t : Timer) : (s.setTimer t).events = s.events := rfl
@[simp] theorem setTimer_overrun (s : State) (t : Timer) : (s.setTimer t).overrun = s.overrun := rfl
@[simp] theorem setTimer_evmask (s : State) (t : Timer) : (s.setTimer t).evmask = s.evmask := rfl
@[simp] theorem setTimer_irqEnable (s : State) (t : Timer) : (s.setTimer t).irqEnable = s.irqEnable := rfl
@[simp] theorem setTimer_mgmt (s : State) (t : Timer) : (s.setTimer t).mgmt = s.mgmt := rfl
@[simp] theorem setTimer_freeCount (s : State) (t : Timer) : (s.setTimer t).freeCount = s.freeCount := rfl
@[simp] theorem setTimer_pending (s : State) (t : Timer) : (s.setTimer t).pending = s.pending := rfl
@[simp] theorem setTimer_board (s : State) (t : Timer) : (s.setTimer t).board = s.board := rfl

/-! ## `setEngine` -/

@[simp] theorem setEngine_windows (s : State) (e : Engine) : (s.setEngine e).windows = s.windows := rfl
@[simp] theorem setEngine_pages (s : State) (e : Engine) : (s.setEngine e).pages = s.pages := rfl
@[simp] theorem setEngine_groups (s : State) (e : Engine) : (s.setEngine e).groups = s.groups := rfl
@[simp] theorem setEngine_pendingFlip (s : State) (e : Engine) : (s.setEngine e).pendingFlip = s.pendingFlip := rfl
@[simp] theorem setEngine_pPort (s : State) (e : Engine) : (s.setEngine e).pPort = s.pPort := rfl
@[simp] theorem setEngine_cPort (s : State) (e : Engine) : (s.setEngine e).cPort = s.cPort := rfl
@[simp] theorem setEngine_holdCount (s : State) (e : Engine) : (s.setEngine e).holdCount = s.holdCount := rfl
@[simp] theorem setEngine_holdMax (s : State) (e : Engine) : (s.setEngine e).holdMax = s.holdMax := rfl
@[simp] theorem setEngine_mergeNoted (s : State) (e : Engine) : (s.setEngine e).mergeNoted = s.mergeNoted := rfl
@[simp] theorem setEngine_copyQueue (s : State) (e : Engine) : (s.setEngine e).copyQueue = s.copyQueue := rfl
@[simp] theorem setEngine_mport (s : State) (e : Engine) : (s.setEngine e).mport = s.mport := rfl
@[simp] theorem setEngine_freed (s : State) (e : Engine) : (s.setEngine e).freed = s.freed := rfl
@[simp] theorem setEngine_streak (s : State) (e : Engine) : (s.setEngine e).streak = s.streak := rfl
@[simp] theorem setEngine_pointer (s : State) (e : Engine) : (s.setEngine e).pointer = s.pointer := rfl
@[simp] theorem setEngine_timer (s : State) (e : Engine) : (s.setEngine e).timer = s.timer := rfl
@[simp] theorem setEngine_fsync (s : State) (e : Engine) : (s.setEngine e).fsync = s.fsync := rfl
@[simp] theorem setEngine_frz (s : State) (e : Engine) : (s.setEngine e).frz = s.frz := rfl
@[simp] theorem setEngine_freeze (s : State) (e : Engine) : (s.setEngine e).freeze = s.freeze := rfl
@[simp] theorem setEngine_events (s : State) (e : Engine) : (s.setEngine e).events = s.events := rfl
@[simp] theorem setEngine_overrun (s : State) (e : Engine) : (s.setEngine e).overrun = s.overrun := rfl
@[simp] theorem setEngine_evmask (s : State) (e : Engine) : (s.setEngine e).evmask = s.evmask := rfl
@[simp] theorem setEngine_irqEnable (s : State) (e : Engine) : (s.setEngine e).irqEnable = s.irqEnable := rfl
@[simp] theorem setEngine_mgmt (s : State) (e : Engine) : (s.setEngine e).mgmt = s.mgmt := rfl
@[simp] theorem setEngine_freeCount (s : State) (e : Engine) : (s.setEngine e).freeCount = s.freeCount := rfl
@[simp] theorem setEngine_pending (s : State) (e : Engine) : (s.setEngine e).pending = s.pending := rfl
@[simp] theorem setEngine_board (s : State) (e : Engine) : (s.setEngine e).board = s.board := rfl

/-! ## `issue` -/

@[simp] theorem issue_windows (s : State) (q : Requester) (a : Access) : (s.issue q a).windows = s.windows := rfl
@[simp] theorem issue_pages (s : State) (q : Requester) (a : Access) : (s.issue q a).pages = s.pages := rfl
@[simp] theorem issue_groups (s : State) (q : Requester) (a : Access) : (s.issue q a).groups = s.groups := rfl
@[simp] theorem issue_pendingFlip (s : State) (q : Requester) (a : Access) : (s.issue q a).pendingFlip = s.pendingFlip :=
  rfl
@[simp] theorem issue_pPort (s : State) (q : Requester) (a : Access) : (s.issue q a).pPort = s.pPort := rfl
@[simp] theorem issue_cPort (s : State) (q : Requester) (a : Access) : (s.issue q a).cPort = s.cPort := rfl
@[simp] theorem issue_holdCount (s : State) (q : Requester) (a : Access) : (s.issue q a).holdCount = s.holdCount :=
  rfl
@[simp] theorem issue_holdMax (s : State) (q : Requester) (a : Access) : (s.issue q a).holdMax = s.holdMax := rfl
@[simp] theorem issue_mergeNoted (s : State) (q : Requester) (a : Access) : (s.issue q a).mergeNoted = s.mergeNoted :=
  rfl
@[simp] theorem issue_copyQueue (s : State) (q : Requester) (a : Access) : (s.issue q a).copyQueue = s.copyQueue :=
  rfl
@[simp] theorem issue_engine (s : State) (q : Requester) (a : Access) : (s.issue q a).engine = s.engine := rfl
@[simp] theorem issue_streak (s : State) (q : Requester) (a : Access) : (s.issue q a).streak = s.streak := rfl
@[simp] theorem issue_pointer (s : State) (q : Requester) (a : Access) : (s.issue q a).pointer = s.pointer := rfl
@[simp] theorem issue_timer (s : State) (q : Requester) (a : Access) : (s.issue q a).timer = s.timer := rfl
@[simp] theorem issue_fsync (s : State) (q : Requester) (a : Access) : (s.issue q a).fsync = s.fsync := rfl
@[simp] theorem issue_frz (s : State) (q : Requester) (a : Access) : (s.issue q a).frz = s.frz := rfl
@[simp] theorem issue_freeze (s : State) (q : Requester) (a : Access) : (s.issue q a).freeze = s.freeze := rfl
@[simp] theorem issue_events (s : State) (q : Requester) (a : Access) : (s.issue q a).events = s.events := rfl
@[simp] theorem issue_overrun (s : State) (q : Requester) (a : Access) : (s.issue q a).overrun = s.overrun := rfl
@[simp] theorem issue_evmask (s : State) (q : Requester) (a : Access) : (s.issue q a).evmask = s.evmask := rfl
@[simp] theorem issue_irqEnable (s : State) (q : Requester) (a : Access) : (s.issue q a).irqEnable = s.irqEnable :=
  rfl
@[simp] theorem issue_mgmt (s : State) (q : Requester) (a : Access) : (s.issue q a).mgmt = s.mgmt := rfl
@[simp] theorem issue_freeCount (s : State) (q : Requester) (a : Access) : (s.issue q a).freeCount = s.freeCount :=
  rfl
@[simp] theorem issue_pending (s : State) (q : Requester) (a : Access) : (s.issue q a).pending = s.pending := rfl
@[simp] theorem issue_board (s : State) (q : Requester) (a : Access) : (s.issue q a).board = s.board := rfl

/-! ## `answer` -/

@[simp] theorem answer_windows (s : State) (out : List Byte) : (s.answer out).windows = s.windows := rfl
@[simp] theorem answer_pages (s : State) (out : List Byte) : (s.answer out).pages = s.pages := rfl
@[simp] theorem answer_groups (s : State) (out : List Byte) : (s.answer out).groups = s.groups := rfl
@[simp] theorem answer_pendingFlip (s : State) (out : List Byte) : (s.answer out).pendingFlip = s.pendingFlip := rfl
@[simp] theorem answer_pPort (s : State) (out : List Byte) : (s.answer out).pPort = s.pPort := rfl
@[simp] theorem answer_cPort (s : State) (out : List Byte) : (s.answer out).cPort = s.cPort := rfl
@[simp] theorem answer_holdCount (s : State) (out : List Byte) : (s.answer out).holdCount = s.holdCount := rfl
@[simp] theorem answer_holdMax (s : State) (out : List Byte) : (s.answer out).holdMax = s.holdMax := rfl
@[simp] theorem answer_mergeNoted (s : State) (out : List Byte) : (s.answer out).mergeNoted = s.mergeNoted := rfl
@[simp] theorem answer_copyQueue (s : State) (out : List Byte) : (s.answer out).copyQueue = s.copyQueue := rfl
@[simp] theorem answer_engine (s : State) (out : List Byte) : (s.answer out).engine = s.engine := rfl
@[simp] theorem answer_mport (s : State) (out : List Byte) : (s.answer out).mport = s.mport := rfl
@[simp] theorem answer_freed (s : State) (out : List Byte) : (s.answer out).freed = s.freed := rfl
@[simp] theorem answer_streak (s : State) (out : List Byte) : (s.answer out).streak = s.streak := rfl
@[simp] theorem answer_pointer (s : State) (out : List Byte) : (s.answer out).pointer = s.pointer := rfl
@[simp] theorem answer_timer (s : State) (out : List Byte) : (s.answer out).timer = s.timer := rfl
@[simp] theorem answer_fsync (s : State) (out : List Byte) : (s.answer out).fsync = s.fsync := rfl
@[simp] theorem answer_frz (s : State) (out : List Byte) : (s.answer out).frz = s.frz := rfl
@[simp] theorem answer_freeze (s : State) (out : List Byte) : (s.answer out).freeze = s.freeze := rfl
@[simp] theorem answer_events (s : State) (out : List Byte) : (s.answer out).events = s.events := rfl
@[simp] theorem answer_overrun (s : State) (out : List Byte) : (s.answer out).overrun = s.overrun := rfl
@[simp] theorem answer_evmask (s : State) (out : List Byte) : (s.answer out).evmask = s.evmask := rfl
@[simp] theorem answer_irqEnable (s : State) (out : List Byte) : (s.answer out).irqEnable = s.irqEnable := rfl
@[simp] theorem answer_freeCount (s : State) (out : List Byte) : (s.answer out).freeCount = s.freeCount := rfl
@[simp] theorem answer_pending (s : State) (out : List Byte) : (s.answer out).pending = s.pending := rfl
@[simp] theorem answer_board (s : State) (out : List Byte) : (s.answer out).board = s.board := rfl

/-! ## `setPort` -/

@[simp] theorem setPort_windows (s : State) (x : Port) (v : PortState) : (s.setPort x v).windows = s.windows := by
  cases x <;> rfl
@[simp] theorem setPort_pages (s : State) (x : Port) (v : PortState) : (s.setPort x v).pages = s.pages := by
  cases x <;> rfl
@[simp] theorem setPort_groups (s : State) (x : Port) (v : PortState) : (s.setPort x v).groups = s.groups := by
  cases x <;> rfl
@[simp] theorem setPort_pendingFlip (s : State) (x : Port) (v : PortState) : (s.setPort x v).pendingFlip = s.pendingFlip := by
  cases x <;> rfl
@[simp] theorem setPort_holdCount (s : State) (x : Port) (v : PortState) : (s.setPort x v).holdCount = s.holdCount := by
  cases x <;> rfl
@[simp] theorem setPort_holdMax (s : State) (x : Port) (v : PortState) : (s.setPort x v).holdMax = s.holdMax := by
  cases x <;> rfl
@[simp] theorem setPort_mergeNoted (s : State) (x : Port) (v : PortState) : (s.setPort x v).mergeNoted = s.mergeNoted := by
  cases x <;> rfl
@[simp] theorem setPort_copyQueue (s : State) (x : Port) (v : PortState) : (s.setPort x v).copyQueue = s.copyQueue := by
  cases x <;> rfl
@[simp] theorem setPort_engine (s : State) (x : Port) (v : PortState) : (s.setPort x v).engine = s.engine := by
  cases x <;> rfl
@[simp] theorem setPort_mport (s : State) (x : Port) (v : PortState) : (s.setPort x v).mport = s.mport := by
  cases x <;> rfl
@[simp] theorem setPort_freed (s : State) (x : Port) (v : PortState) : (s.setPort x v).freed = s.freed := by
  cases x <;> rfl
@[simp] theorem setPort_streak (s : State) (x : Port) (v : PortState) : (s.setPort x v).streak = s.streak := by
  cases x <;> rfl
@[simp] theorem setPort_pointer (s : State) (x : Port) (v : PortState) : (s.setPort x v).pointer = s.pointer := by
  cases x <;> rfl
@[simp] theorem setPort_timer (s : State) (x : Port) (v : PortState) : (s.setPort x v).timer = s.timer := by
  cases x <;> rfl
@[simp] theorem setPort_fsync (s : State) (x : Port) (v : PortState) : (s.setPort x v).fsync = s.fsync := by
  cases x <;> rfl
@[simp] theorem setPort_frz (s : State) (x : Port) (v : PortState) : (s.setPort x v).frz = s.frz := by cases x <;> rfl
@[simp] theorem setPort_freeze (s : State) (x : Port) (v : PortState) : (s.setPort x v).freeze = s.freeze := by
  cases x <;> rfl
@[simp] theorem setPort_events (s : State) (x : Port) (v : PortState) : (s.setPort x v).events = s.events := by
  cases x <;> rfl
@[simp] theorem setPort_overrun (s : State) (x : Port) (v : PortState) : (s.setPort x v).overrun = s.overrun := by
  cases x <;> rfl
@[simp] theorem setPort_evmask (s : State) (x : Port) (v : PortState) : (s.setPort x v).evmask = s.evmask := by
  cases x <;> rfl
@[simp] theorem setPort_irqEnable (s : State) (x : Port) (v : PortState) : (s.setPort x v).irqEnable = s.irqEnable := by
  cases x <;> rfl
@[simp] theorem setPort_mgmt (s : State) (x : Port) (v : PortState) : (s.setPort x v).mgmt = s.mgmt := by
  cases x <;> rfl
@[simp] theorem setPort_freeCount (s : State) (x : Port) (v : PortState) : (s.setPort x v).freeCount = s.freeCount := by
  cases x <;> rfl
@[simp] theorem setPort_pending (s : State) (x : Port) (v : PortState) : (s.setPort x v).pending = s.pending := by
  cases x <;> rfl
@[simp] theorem setPort_board (s : State) (x : Port) (v : PortState) : (s.setPort x v).board = s.board := by
  cases x <;> rfl

/-! ## `arrive` -/

@[simp] theorem arrive_windows (s : State) (e : Event) : (s.arrive e).windows = s.windows := by
  unfold State.arrive; split <;> [split; skip] <;> rfl
@[simp] theorem arrive_pages (s : State) (e : Event) : (s.arrive e).pages = s.pages := by
  unfold State.arrive; split <;> [split; skip] <;> rfl
@[simp] theorem arrive_groups (s : State) (e : Event) : (s.arrive e).groups = s.groups := by
  unfold State.arrive; split <;> [split; skip] <;> rfl
@[simp] theorem arrive_pendingFlip (s : State) (e : Event) : (s.arrive e).pendingFlip = s.pendingFlip := by
  unfold State.arrive; split <;> [split; skip] <;> rfl
@[simp] theorem arrive_pPort (s : State) (e : Event) : (s.arrive e).pPort = s.pPort := by
  unfold State.arrive; split <;> [split; skip] <;> rfl
@[simp] theorem arrive_cPort (s : State) (e : Event) : (s.arrive e).cPort = s.cPort := by
  unfold State.arrive; split <;> [split; skip] <;> rfl
@[simp] theorem arrive_holdCount (s : State) (e : Event) : (s.arrive e).holdCount = s.holdCount := by
  unfold State.arrive; split <;> [split; skip] <;> rfl
@[simp] theorem arrive_holdMax (s : State) (e : Event) : (s.arrive e).holdMax = s.holdMax := by
  unfold State.arrive; split <;> [split; skip] <;> rfl
@[simp] theorem arrive_mergeNoted (s : State) (e : Event) : (s.arrive e).mergeNoted = s.mergeNoted := by
  unfold State.arrive; split <;> [split; skip] <;> rfl
@[simp] theorem arrive_copyQueue (s : State) (e : Event) : (s.arrive e).copyQueue = s.copyQueue := by
  unfold State.arrive; split <;> [split; skip] <;> rfl
@[simp] theorem arrive_engine (s : State) (e : Event) : (s.arrive e).engine = s.engine := by
  unfold State.arrive; split <;> [split; skip] <;> rfl
@[simp] theorem arrive_mport (s : State) (e : Event) : (s.arrive e).mport = s.mport := by
  unfold State.arrive; split <;> [split; skip] <;> rfl
@[simp] theorem arrive_freed (s : State) (e : Event) : (s.arrive e).freed = s.freed := by
  unfold State.arrive; split <;> [split; skip] <;> rfl
@[simp] theorem arrive_streak (s : State) (e : Event) : (s.arrive e).streak = s.streak := by
  unfold State.arrive; split <;> [split; skip] <;> rfl
@[simp] theorem arrive_pointer (s : State) (e : Event) : (s.arrive e).pointer = s.pointer := by
  unfold State.arrive; split <;> [split; skip] <;> rfl
@[simp] theorem arrive_timer (s : State) (e : Event) : (s.arrive e).timer = s.timer := by
  unfold State.arrive; split <;> [split; skip] <;> rfl
@[simp] theorem arrive_fsync (s : State) (e : Event) : (s.arrive e).fsync = s.fsync := by
  unfold State.arrive; split <;> [split; skip] <;> rfl
@[simp] theorem arrive_frz (s : State) (e : Event) : (s.arrive e).frz = s.frz := by
  unfold State.arrive; split <;> [split; skip] <;> rfl
@[simp] theorem arrive_freeze (s : State) (e : Event) : (s.arrive e).freeze = s.freeze := by
  unfold State.arrive; split <;> [split; skip] <;> rfl
@[simp] theorem arrive_evmask (s : State) (e : Event) : (s.arrive e).evmask = s.evmask := by
  unfold State.arrive; split <;> [split; skip] <;> rfl
@[simp] theorem arrive_irqEnable (s : State) (e : Event) : (s.arrive e).irqEnable = s.irqEnable := by
  unfold State.arrive; split <;> [split; skip] <;> rfl
@[simp] theorem arrive_mgmt (s : State) (e : Event) : (s.arrive e).mgmt = s.mgmt := by
  unfold State.arrive; split <;> [split; skip] <;> rfl
@[simp] theorem arrive_freeCount (s : State) (e : Event) : (s.arrive e).freeCount = s.freeCount := by
  unfold State.arrive; split <;> [split; skip] <;> rfl
@[simp] theorem arrive_pending (s : State) (e : Event) : (s.arrive e).pending = s.pending := by
  unfold State.arrive; split <;> [split; skip] <;> rfl
@[simp] theorem arrive_board (s : State) (e : Event) : (s.arrive e).board = s.board := by
  unfold State.arrive; split <;> [split; skip] <;> rfl

/-! ## `record` -/

@[simp] theorem record_windows (s : State) (e : Event) : (s.record e).windows = s.windows :=
  arrive_windows s _
@[simp] theorem record_pages (s : State) (e : Event) : (s.record e).pages = s.pages :=
  arrive_pages s _
@[simp] theorem record_groups (s : State) (e : Event) : (s.record e).groups = s.groups :=
  arrive_groups s _
@[simp] theorem record_pendingFlip (s : State) (e : Event) : (s.record e).pendingFlip = s.pendingFlip :=
  arrive_pendingFlip s _
@[simp] theorem record_pPort (s : State) (e : Event) : (s.record e).pPort = s.pPort :=
  arrive_pPort s _
@[simp] theorem record_cPort (s : State) (e : Event) : (s.record e).cPort = s.cPort :=
  arrive_cPort s _
@[simp] theorem record_holdCount (s : State) (e : Event) : (s.record e).holdCount = s.holdCount :=
  arrive_holdCount s _
@[simp] theorem record_holdMax (s : State) (e : Event) : (s.record e).holdMax = s.holdMax :=
  arrive_holdMax s _
@[simp] theorem record_mergeNoted (s : State) (e : Event) : (s.record e).mergeNoted = s.mergeNoted :=
  arrive_mergeNoted s _
@[simp] theorem record_copyQueue (s : State) (e : Event) : (s.record e).copyQueue = s.copyQueue :=
  arrive_copyQueue s _
@[simp] theorem record_engine (s : State) (e : Event) : (s.record e).engine = s.engine :=
  arrive_engine s _
@[simp] theorem record_mport (s : State) (e : Event) : (s.record e).mport = s.mport :=
  arrive_mport s _
@[simp] theorem record_freed (s : State) (e : Event) : (s.record e).freed = s.freed :=
  arrive_freed s _
@[simp] theorem record_streak (s : State) (e : Event) : (s.record e).streak = s.streak :=
  arrive_streak s _
@[simp] theorem record_pointer (s : State) (e : Event) : (s.record e).pointer = s.pointer :=
  arrive_pointer s _
@[simp] theorem record_timer (s : State) (e : Event) : (s.record e).timer = s.timer :=
  arrive_timer s _
@[simp] theorem record_fsync (s : State) (e : Event) : (s.record e).fsync = s.fsync :=
  arrive_fsync s _
@[simp] theorem record_frz (s : State) (e : Event) : (s.record e).frz = s.frz :=
  arrive_frz s _
@[simp] theorem record_freeze (s : State) (e : Event) : (s.record e).freeze = s.freeze :=
  arrive_freeze s _
@[simp] theorem record_evmask (s : State) (e : Event) : (s.record e).evmask = s.evmask :=
  arrive_evmask s _
@[simp] theorem record_irqEnable (s : State) (e : Event) : (s.record e).irqEnable = s.irqEnable :=
  arrive_irqEnable s _
@[simp] theorem record_mgmt (s : State) (e : Event) : (s.record e).mgmt = s.mgmt :=
  arrive_mgmt s _
@[simp] theorem record_freeCount (s : State) (e : Event) : (s.record e).freeCount = s.freeCount :=
  arrive_freeCount s _
@[simp] theorem record_pending (s : State) (e : Event) : (s.record e).pending = s.pending :=
  arrive_pending s _
@[simp] theorem record_board (s : State) (e : Event) : (s.record e).board = s.board :=
  arrive_board s _

end Sys2Proof.Laws
end

