-- ==== Sys2Proof/Laws/Ops.lean ====
section
/-! SUPPORT. Laws of the named reads and writes: what a read gives after a write, the three outcomes of a record, the
framing of a transaction, and a sample of the management lines. -/

namespace Sys2Proof.Laws

open Sys2Proof Sys2Proof.Machine

/-! ## Vectors -/

@[simp] theorem vecMap_getElem {α β : Type} {n : Nat} (f : α → β) (v : Vector α n) (i : Nat) (h : i < n) :
    (vecMap f v)[i] = f v[i] := by
  simp [vecMap]

@[simp] theorem vecMapIdx_getElem {α β : Type} {n : Nat} (f : Nat → α → β) (v : Vector α n) (i : Nat) (h : i < n) :
    (vecMapIdx f v)[i] = f i v[i] := by
  simp [vecMapIdx]

/-! ## Windows -/

@[simp] theorem window_setWindow_same (s : State) (w : Fin 8) (x : Window) : (s.setWindow w x).window w = x := by
  simp [State.window, State.setWindow]

theorem window_setWindow_ne (s : State) {v w : Fin 8} (x : Window) (h : v ≠ w) :
    (s.setWindow w x).window v = s.window v := by
  have h' : w.val ≠ v.val := fun e => h (Fin.ext e.symm)
  simp [State.window, State.setWindow, h']

theorem window_setWindow (s : State) (v w : Fin 8) (x : Window) :
    (s.setWindow w x).window v = if v = w then x else s.window v := by
  by_cases h : v = w
  · subst h; simp
  · simp [window_setWindow_ne s x h, h]

@[simp] theorem window_mapWindows (s : State) (f : Window → Window) (w : Fin 8) :
    (s.mapWindows f).window w = f (s.window w) := by
  simp [State.window, State.mapWindows]

/-- Two states with the same windows read alike. -/
theorem window_congr {s t : State} (h : s.windows = t.windows) (w : Fin 8) : s.window w = t.window w := by
  simp [State.window, h]

theorem windows_ext {s t : State} (h : ∀ w, s.window w = t.window w) : s.windows = t.windows := by
  apply Vector.ext; intro i hi; exact h ⟨i, hi⟩

/-! ## Pages -/

@[simp] theorem page_setPage_same (s : State) (p : Fin 512) (e : PageEntry) : (s.setPage p e).page p = e := by
  simp [State.page, State.setPage]

theorem page_setPage_ne (s : State) {p q : Fin 512} (e : PageEntry) (h : q ≠ p) :
    (s.setPage p e).page q = s.page q := by
  have h' : p.val ≠ q.val := fun x => h (Fin.ext x.symm)
  simp [State.page, State.setPage, h']

theorem page_setPage (s : State) (q p : Fin 512) (e : PageEntry) :
    (s.setPage p e).page q = if q = p then e else s.page q := by
  by_cases h : q = p
  · subst h; simp
  · simp [page_setPage_ne s e h, h]

@[simp] theorem page_mapPages (s : State) (f : Fin 512 → PageEntry → PageEntry) (p : Fin 512) :
    (s.mapPages f).page p = f p (s.page p) := by
  have h : Fin.ofNat 512 p.val = p := Fin.ext (Nat.mod_eq_of_lt p.isLt)
  show (vecMapIdx _ s.pages)[p.val] = _
  rw [vecMapIdx_getElem, h]; rfl

theorem page_congr {s t : State} (h : s.pages = t.pages) (p : Fin 512) : s.page p = t.page p := by
  simp [State.page, h]

theorem pages_ext {s t : State} (h : ∀ p, s.page p = t.page p) : s.pages = t.pages := by
  apply Vector.ext; intro i hi; exact h ⟨i, hi⟩

/-! ## Groups and the merge-noted flags -/

@[simp] theorem group_setGroup_same (s : State) (g : Fin 4) (x : Group) : (s.setGroup g x).group g = x := by
  simp [State.group, State.setGroup]

theorem group_setGroup_ne (s : State) {h g : Fin 4} (x : Group) (hne : h ≠ g) :
    (s.setGroup g x).group h = s.group h := by
  have h' : g.val ≠ h.val := fun e => hne (Fin.ext e.symm)
  simp [State.group, State.setGroup, h']

theorem group_setGroup (s : State) (h g : Fin 4) (x : Group) :
    (s.setGroup g x).group h = if h = g then x else s.group h := by
  by_cases e : h = g
  · subst e; simp
  · simp [group_setGroup_ne s x e, e]

theorem group_congr {s t : State} (h : s.groups = t.groups) (g : Fin 4) : s.group g = t.group g := by
  simp [State.group, h]

@[simp] theorem noted_setNoted_same (s : State) (w : Fin 8) (b : Bool) : (s.setNoted w b).noted w = b := by
  simp [State.noted, State.setNoted]

theorem noted_setNoted_ne (s : State) {v w : Fin 8} (b : Bool) (h : v ≠ w) :
    (s.setNoted w b).noted v = s.noted v := by
  have h' : w.val ≠ v.val := fun e => h (Fin.ext e.symm)
  simp [State.noted, State.setNoted, h']

theorem noted_congr {s t : State} (h : s.mergeNoted = t.mergeNoted) (w : Fin 8) : s.noted w = t.noted w := by
  simp [State.noted, h]

/-! ## Ports -/

@[simp] theorem port_setPort_same (s : State) (x : Port) (v : PortState) : (s.setPort x v).port x = v := by
  cases x <;> rfl

theorem port_setPort_ne (s : State) {x y : Port} (v : PortState) (h : y ≠ x) :
    (s.setPort x v).port y = s.port y := by
  cases x <;> cases y <;> first | rfl | exact absurd rfl h

@[simp] theorem phaseOf_setPort_same (s : State) (x : Port) (v : PortState) : (s.setPort x v).phaseOf x = v.phase := by
  cases x <;> rfl

theorem phaseOf_setPort_ne (s : State) {x y : Port} (v : PortState) (h : y ≠ x) :
    (s.setPort x v).phaseOf y = s.phaseOf y := by
  cases x <;> cases y <;> first | rfl | exact absurd rfl h

/-! ## Records -/

/-- A record that arrives can change the queue and OVERRUN alone. -/
theorem arrive_eq (s : State) (e : Event) :
    s.arrive e = { s with events := (s.arrive e).events, overrun := (s.arrive e).overrun } := by
  unfold State.arrive; split <;> [split; skip] <;> rfl

theorem record_eq (s : State) (e : Event) :
    s.record e = { s with events := (s.record e).events, overrun := (s.record e).overrun } := arrive_eq _ _

theorem arrive_masked (s : State) (e : Event) (h : maskAllows s.evmask e.kind = false) : s.arrive e = s := by
  simp [State.arrive, h]

theorem arrive_kept (s : State) (e : Event) (h : maskAllows s.evmask e.kind = true) (hl : s.events.length < 32) :
    s.arrive e = { s with events := s.events ++ [e] } := by
  simp [State.arrive, h, Config.eventCapacity, hl]

theorem arrive_discarded (s : State) (e : Event) (h : maskAllows s.evmask e.kind = true)
    (hl : 32 ≤ s.events.length) : s.arrive e = { s with overrun := true } := by
  simp [State.arrive, h, Config.eventCapacity, Nat.not_lt.mpr hl]

/-- The queue after an arrival: what it was, or that with the record at its tail. -/
theorem arrive_events (s : State) (e : Event) :
    (s.arrive e).events = s.events ∨ (s.events.length < 32 ∧ (s.arrive e).events = s.events ++ [e]) := by
  unfold State.arrive Config.eventCapacity
  split
  · split
    · next h => exact Or.inr ⟨h, rfl⟩
    · exact Or.inl rfl
  · exact Or.inl rfl

/-! ## Responses -/

theorem refuseAccess_eq (s : State) (x : Port) (a : Access) :
    s.refuseAccess x a = s.setPort x { phase := .idle, resp := some { resp := .error, rdata := readBeats a [] } } := rfl

theorem setPhase_eq (s : State) (x : Port) (ph : Phase) : s.setPhase x ph = s.setPort x { phase := ph, resp := none } :=
  rfl

theorem readBeats_length (a : Access) (d : List Word) (h : a.write = false) : (readBeats a d).length = a.beats := by
  simp [readBeats, h]

/-- R27: what the bridge itself answers a read carries zero on every beat. -/
theorem readBeats_nil (a : Access) : readBeats a [] = if a.write then [] else List.replicate a.beats 0#32 := by
  unfold readBeats
  split
  · rfl
  · apply List.ext_getElem <;> simp

/-! ## The Copy Queue -/

/-- A promotion can change the order of the queue alone. -/
theorem promote_eq (s : State) (p : Fin 512) : s.promote p = { s with copyQueue := (s.promote p).copyQueue } := by
  unfold State.promote; split <;> rfl

theorem promote_stale (s : State) (p : Fin 512) (h : (s.page p).state = .stale) :
    s.promote p = { s with copyQueue := p :: s.copyQueue.filter (· ≠ p) } := by
  simp [State.promote, h]

theorem promote_other (s : State) (p : Fin 512) (h : (s.page p).state ≠ .stale) : s.promote p = s := by
  simp [State.promote, h]

/-! ## The framing of a transaction -/

theorem transactAt_ready (n : Nat) (s : State) (body : State → State × List Byte) (h : s.portReady) :
    s.transactAt n body = { (body s).1 with mgmt := .executed (body s).2 n } := by
  rcases h with h | h <;> simp [State.transactAt, h]

theorem transactAt_unready (n : Nat) (s : State) (body : State → State × List Byte) (h : ¬s.portReady) :
    s.transactAt n body = s := by
  unfold State.transactAt
  dsimp only
  split
  · exact absurd (.inl (by assumption)) h
  · exact absurd (.inr (by assumption)) h
  · rfl
  · rfl

theorem transact_ready (s : State) (body : State → State × List Byte) (h : s.portReady) :
    s.transact body = (body s).1.answer (body s).2 := transactAt_ready 0 s body h

theorem transact_unready (s : State) (body : State → State × List Byte) (h : ¬s.portReady) : s.transact body = s :=
  transactAt_unready 0 s body h

theorem transactStatus_ready (s : State) (body : State → State × Status) (h : s.portReady) :
    s.transactStatus body = (body s).1.answer [(body s).2.code] := by
  simp [State.transactStatus, transact_ready _ _ h]

theorem transactStatus_unready (s : State) (body : State → State × Status) (h : ¬s.portReady) :
    s.transactStatus body = s := transact_unready _ _ h

/-! ## The serial lines -/

/-- Bytes that a rise of MCSn would leave cut short complete no command. -/
theorem completed_cutShort (bytes bs : List Byte) (h : transactionOf bytes = .transactionCutShort bs) :
    completed bytes = none := by
  unfold completed; rw [h]

/-- Bytes that reach their execution point complete the command they spell. -/
theorem completed_some (bytes : List Byte) (h : ∀ bs, transactionOf bytes ≠ .transactionCutShort bs) :
    completed bytes = some (transactionOf bytes) := by
  unfold completed
  split
  · next bs e => exact absurd e (h bs)
  · rfl

/-- MSCK at the level it had: no edge. -/
theorem clock_level (m : ManagementPort) (msi : Bool) : m.clock m.msck msi = m := by
  obtain ⟨_, _, _, _, _, _, _, msck⟩ := m
  cases msck <;> rfl

theorem clock_rise (m : ManagementPort) (msi : Bool) (h : m.msck = false) :
    m.clock true msi = { m with msck := true }.rise msi := by
  simp [ManagementPort.clock, ManagementPort.rises, h]

theorem clock_fall (m : ManagementPort) (msi : Bool) (h : m.msck = true) :
    m.clock false msi = { m with msck := false }.fall := by
  simp [ManagementPort.clock, ManagementPort.rises, h]

/-- No sample of MSCK but a rising edge is an execution point. -/
theorem completes_level (m : ManagementPort) (msck msi : Bool) (h : m.rises msck = false) :
    m.completes msck msi = none := by
  unfold ManagementPort.completes
  split <;> simp [h]

/-- The serial lines change the port, the queue of commands and the free-value counter alone. -/
theorem samplePort_eq (s : State) (l : BoardLevels) : s.samplePort l = { s with
    mgmt := (s.samplePort l).mgmt, pending := (s.samplePort l).pending, freeCount := (s.samplePort l).freeCount } := by
  unfold State.samplePort State.selectThenClock State.clockThenSelect
  dsimp only
  repeat' split
  all_goals rfl

/-- Without a rising edge of MSCK a change of MCSn comes first, and no command is completed. -/
theorem samplePort_level (s : State) (l : BoardLevels) (h : s.mgmt.rises l.msck = false) :
    s.samplePort l = { s with mgmt := (s.mgmt.select l.mcsn).clock l.msck l.msi } := by
  have k : (s.mgmt.select l.mcsn).rises l.msck = false := by
    rw [← h]; unfold ManagementPort.rises ManagementPort.select ManagementPort.idle; repeat' split
    all_goals rfl
  simp [State.samplePort, h, State.selectThenClock, completes_level _ _ _ k]

end Sys2Proof.Laws
end

