-- ==== Sys2Proof/Laws/Ports.lean ====
section
/-! SUPPORT. Laws of the port handlers: what judging an access anew can change, and what a judgement depends on. -/

namespace Sys2Proof.Laws

open Sys2Proof Sys2Proof.Machine

/-! ## What a judgement can change -/

/-- The two states differ in the handlers, the merge-noted flags, the Copy Queue, the records and the free-value
counter alone. -/
structure PortsOnly (s t : State) : Prop where
  windows : t.windows = s.windows
  pages : t.pages = s.pages
  groups : t.groups = s.groups
  pendingFlip : t.pendingFlip = s.pendingFlip
  holdMax : t.holdMax = s.holdMax
  engine : t.engine = s.engine
  mport : t.mport = s.mport
  freed : t.freed = s.freed
  streak : t.streak = s.streak
  pointer : t.pointer = s.pointer
  timer : t.timer = s.timer
  fsync : t.fsync = s.fsync
  frz : t.frz = s.frz
  freeze : t.freeze = s.freeze
  evmask : t.evmask = s.evmask
  irqEnable : t.irqEnable = s.irqEnable
  mgmt : t.mgmt = s.mgmt
  board : t.board = s.board
  pending : t.pending = s.pending

theorem PortsOnly.refl (s : State) : PortsOnly s s := by constructor <;> rfl

theorem PortsOnly.trans {s t u : State} (h : PortsOnly s t) (k : PortsOnly t u) : PortsOnly s u := by
  constructor
  · exact k.windows.trans h.windows
  · exact k.pages.trans h.pages
  · exact k.groups.trans h.groups
  · exact k.pendingFlip.trans h.pendingFlip
  · exact k.holdMax.trans h.holdMax
  · exact k.engine.trans h.engine
  · exact k.mport.trans h.mport
  · exact k.freed.trans h.freed
  · exact k.streak.trans h.streak
  · exact k.pointer.trans h.pointer
  · exact k.timer.trans h.timer
  · exact k.fsync.trans h.fsync
  · exact k.frz.trans h.frz
  · exact k.freeze.trans h.freeze
  · exact k.evmask.trans h.evmask
  · exact k.irqEnable.trans h.irqEnable
  · exact k.mgmt.trans h.mgmt
  · exact k.board.trans h.board
  · exact k.pending.trans h.pending

theorem portsOnly_setPort (s : State) (x : Port) (v : PortState) : PortsOnly s (s.setPort x v) := by
  constructor <;> simp

theorem portsOnly_record (s : State) (e : Event) : PortsOnly s (s.record e) := by
  constructor <;> simp

theorem portsOnly_setNoted (s : State) (w : Fin 8) (k : Bool) : PortsOnly s (s.setNoted w k) := by
  constructor <;> rfl

theorem portsOnly_promote (s : State) (p : Fin 512) : PortsOnly s (s.promote p) := by
  rw [promote_eq]; constructor <;> rfl

theorem portsOnly_clearHold (s : State) (x : Port) : PortsOnly s (s.clearHold x) := by
  cases x <;> constructor <;> rfl

theorem portsOnly_noteMerge (s : State) (x : Port) (a : Access) : PortsOnly s (s.noteMerge x a) := by
  unfold State.noteMerge
  split
  · exact (portsOnly_setNoted _ _ _).trans (portsOnly_record _ _)
  · exact PortsOnly.refl s

theorem portsOnly_takeJudgement (s : State) (x : Port) (a : Access) (j : Judgement) :
    PortsOnly s (s.takeJudgement x a j) := by
  cases j with
  | go r => exact (portsOnly_clearHold s x).trans (portsOnly_setPort _ _ _)
  | hold why w p =>
    cases why with
    | demand => exact ((portsOnly_clearHold s x).trans (portsOnly_setPort _ _ _)).trans (portsOnly_promote _ _)
    | sealed =>
      show PortsOnly s ((if s.sealedHold then s else s.clearHold x).setPhase x _)
      split
      · exact portsOnly_setPort _ _ _
      · exact (portsOnly_clearHold s x).trans (portsOnly_setPort _ _ _)
  | refuse e => exact ((portsOnly_clearHold s x).trans (portsOnly_setPort _ _ _)).trans (portsOnly_record _ _)

theorem portsOnly_judgeAccess (s : State) (x : Port) (a : Access) : PortsOnly s (s.judgeAccess x a) :=
  (portsOnly_noteMerge s x a).trans (portsOnly_takeJudgement _ _ _ _)

theorem portsOnly_settle (s : State) (x : Port) : PortsOnly s (s.settle x) := by
  unfold State.settle
  split
  · exact PortsOnly.refl s
  · exact portsOnly_judgeAccess _ _ _
  · exact portsOnly_judgeAccess _ _ _
  · exact PortsOnly.refl s

/-- R29: judging the waiting accesses anew changes the handlers and what belongs to them alone. -/
theorem portsOnly_rejudge (s : State) : PortsOnly s s.rejudge := by
  unfold State.rejudge
  have h : PortsOnly s { s with freeCount := s.freeCount + 1 } := by constructor <;> rfl
  dsimp only
  split
  · split
    · exact (h.trans (portsOnly_settle _ _)).trans (portsOnly_settle _ _)
    · exact (h.trans (portsOnly_settle _ _)).trans (portsOnly_settle _ _)
  · exact (portsOnly_settle _ _).trans (portsOnly_settle _ _)

@[simp] theorem rejudge_windows (s : State) : s.rejudge.windows = s.windows := (portsOnly_rejudge s).windows
@[simp] theorem rejudge_pages (s : State) : s.rejudge.pages = s.pages := (portsOnly_rejudge s).pages
@[simp] theorem rejudge_groups (s : State) : s.rejudge.groups = s.groups := (portsOnly_rejudge s).groups
@[simp] theorem rejudge_pendingFlip (s : State) : s.rejudge.pendingFlip = s.pendingFlip := (portsOnly_rejudge s).pendingFlip
@[simp] theorem rejudge_holdMax (s : State) : s.rejudge.holdMax = s.holdMax := (portsOnly_rejudge s).holdMax
@[simp] theorem rejudge_engine (s : State) : s.rejudge.engine = s.engine := (portsOnly_rejudge s).engine
@[simp] theorem rejudge_mport (s : State) : s.rejudge.mport = s.mport := (portsOnly_rejudge s).mport
@[simp] theorem rejudge_freed (s : State) : s.rejudge.freed = s.freed := (portsOnly_rejudge s).freed
@[simp] theorem rejudge_streak (s : State) : s.rejudge.streak = s.streak := (portsOnly_rejudge s).streak
@[simp] theorem rejudge_pointer (s : State) : s.rejudge.pointer = s.pointer := (portsOnly_rejudge s).pointer
@[simp] theorem rejudge_timer (s : State) : s.rejudge.timer = s.timer := (portsOnly_rejudge s).timer
@[simp] theorem rejudge_fsync (s : State) : s.rejudge.fsync = s.fsync := (portsOnly_rejudge s).fsync
@[simp] theorem rejudge_frz (s : State) : s.rejudge.frz = s.frz := (portsOnly_rejudge s).frz
@[simp] theorem rejudge_freeze (s : State) : s.rejudge.freeze = s.freeze := (portsOnly_rejudge s).freeze
@[simp] theorem rejudge_evmask (s : State) : s.rejudge.evmask = s.evmask := (portsOnly_rejudge s).evmask
@[simp] theorem rejudge_irqEnable (s : State) : s.rejudge.irqEnable = s.irqEnable := (portsOnly_rejudge s).irqEnable
@[simp] theorem rejudge_mgmt (s : State) : s.rejudge.mgmt = s.mgmt := (portsOnly_rejudge s).mgmt
@[simp] theorem rejudge_board (s : State) : s.rejudge.board = s.board := (portsOnly_rejudge s).board
@[simp] theorem rejudge_pending (s : State) : s.rejudge.pending = s.pending := (portsOnly_rejudge s).pending

/-! ## What a judgement depends on -/

theorem place_congr {s t : State} (h : s.windows = t.windows) (x : Port) (a : Access) : s.place x a = t.place x a := by
  have e : ∀ w, s.window w = t.window w := window_congr h
  simp [State.place, State.markerPlace, State.viewPlace, State.bankPlace, State.enabled, State.desc, e]

/-- R29: a judgement depends on the windows and the Page Map alone. -/
theorem judge_congr {s t : State} (h : s.windows = t.windows) (k : s.pages = t.pages) (x : Port) (a : Access) :
    s.judge x a = t.judge x a := by
  cases s; cases t; cases h; cases k; rfl

theorem mergeToNote_congr {s t : State} (h : s.windows = t.windows) (k : s.mergeNoted = t.mergeNoted) (x : Port)
    (a : Access) : s.mergeToNote x a = t.mergeToNote x a := by
  have e : ∀ w, s.window w = t.window w := window_congr h
  have f : ∀ w, s.noted w = t.noted w := noted_congr k
  simp [State.mergeToNote, State.isSealed, State.desc, place_congr h, e, f]

/-- R42: no access of the consumer is a late write. -/
@[simp] theorem mergeToNote_consumer (s : State) (a : Access) : s.mergeToNote .c a = none := rfl

/-- R28: the C-port Handler never holds an access for its own reasons. -/
theorem judge_consumer_never_holds (s : State) (a : Access) (why : HoldReason) (w : Fin 8) (p : Fin 512) :
    s.judge .c a ≠ .hold why w p := by
  unfold State.judge
  split
  · simp
  · unfold State.judgeView; cases a.write <;> simp [State.served]
  · split <;> simp
  · simp

/-! ## One handler at a time -/

/-- Taking a judgement leaves the other handler as it was. -/
theorem settle_otherPort (s : State) {x y : Port} (h : y ≠ x) : (s.settle x).port y = s.port y := by
  have key : ∀ (t : State) (v : PortState), (t.setPort x v).port y = t.port y := fun t v => port_setPort_ne t v h
  have recd : ∀ (t : State) (e : Event), (t.record e).port y = t.port y := fun t e => by
    cases y <;> simp [State.port]
  have clr : ∀ (t : State), (t.clearHold x).port y = t.port y := fun t => by cases x <;> cases y <;> rfl
  have pro : ∀ (t : State) (p : Fin 512), (t.promote p).port y = t.port y := fun t p => by
    rw [promote_eq]; cases y <;> rfl
  have note : ∀ (t : State) (a : Access), (t.noteMerge x a).port y = t.port y := fun t a => by
    unfold State.noteMerge; split
    · rw [recd]; cases y <;> rfl
    · rfl
  have take : ∀ (t : State) (a : Access) (j : Judgement), (t.takeJudgement x a j).port y = t.port y := fun t a j => by
    cases j with
    | go r => exact (key _ _).trans (clr _)
    | hold why w p =>
      cases why with
      | demand => exact (pro _ _).trans ((key _ _).trans (clr _))
      | sealed =>
        show ((if t.sealedHold then t else t.clearHold x).setPhase x _).port y = _
        split
        · exact key _ _
        · exact (key _ _).trans (clr _)
    | refuse e => exact (recd _ _).trans ((key _ _).trans (clr _))
  have judged : ∀ a, (s.judgeAccess x a).port y = s.port y := fun a => (take _ _ _).trans (note _ _)
  unfold State.settle
  split
  · rfl
  · exact judged _
  · exact judged _
  · rfl

/-- A handler that is IDLE, or whose access is ISSUED, judges nothing. -/
theorem settle_idle (s : State) (x : Port) (h : s.phaseOf x = .idle) : s.settle x = s := by
  simp [State.settle, h]

theorem settle_issued (s : State) (x : Port) {a : Access} {r : Resolution} (h : s.phaseOf x = .issued a r) :
    s.settle x = s := by
  simp [State.settle, h]

/-! ## Judging both handlers anew -/

/-- A judgement of the consumer changes its handler and the records alone. -/
theorem settle_consumer_eq (s : State) :
    s.settle .c = { s with cPort := (s.settle .c).cPort, events := (s.settle .c).events,
                           overrun := (s.settle .c).overrun } := by
  have key : ∀ a, s.judgeAccess .c a = { s with
      cPort := (s.judgeAccess .c a).cPort, events := (s.judgeAccess .c a).events,
      overrun := (s.judgeAccess .c a).overrun } := by
    intro a
    have h : s.judgeAccess .c a = s.takeJudgement .c a (s.judge .c a) := rfl
    rw [h]
    cases hj : s.judge .c a with
    | go r => rfl
    | hold why w p => exact absurd hj (judge_consumer_never_holds s a why w p)
    | refuse e =>
      show State.record ((s.clearHold .c).refuseAccess .c a) e = { s with
        cPort := (State.record ((s.clearHold .c).refuseAccess .c a) e).cPort
        events := (State.record ((s.clearHold .c).refuseAccess .c a) e).events
        overrun := (State.record ((s.clearHold .c).refuseAccess .c a) e).overrun }
      rw [record_cPort]
      exact record_eq _ e
  unfold State.settle
  split
  · rfl
  · exact key _
  · exact key _
  · rfl

/-- The two states agree in all that the P-port Handler judges by and in all that belongs to it. -/
structure ProducerSame (s t : State) : Prop where
  windows : t.windows = s.windows
  pages : t.pages = s.pages
  mergeNoted : t.mergeNoted = s.mergeNoted
  pPort : t.pPort = s.pPort
  holdCount : t.holdCount = s.holdCount
  copyQueue : t.copyQueue = s.copyQueue

theorem producerSame_record {s t : State} (h : ProducerSame s t) (e k : Event) :
    ProducerSame (s.record e) (t.record k) := by
  constructor <;> simp only [record_windows, record_pages, record_mergeNoted, record_pPort, record_holdCount,
    record_copyQueue]
  exacts [h.windows, h.pages, h.mergeNoted, h.pPort, h.holdCount, h.copyQueue]

theorem producerSame_noteMerge {s t : State} (h : ProducerSame s t) (a : Access) :
    ProducerSame (s.noteMerge .p a) (t.noteMerge .p a) := by
  unfold State.noteMerge
  rw [mergeToNote_congr h.windows h.mergeNoted]
  split
  · refine producerSame_record ?_ _ _
    constructor
    · exact h.windows
    · exact h.pages
    · show Vector.set t.mergeNoted _ _ = Vector.set s.mergeNoted _ _; rw [h.mergeNoted]
    · exact h.pPort
    · exact h.holdCount
    · exact h.copyQueue
  · exact h

theorem producerSame_promote {s t : State} (h : ProducerSame s t) (p : Fin 512) :
    ProducerSame (s.promote p) (t.promote p) := by
  by_cases hs : (s.page p).state = .stale
  · rw [promote_stale s p hs, promote_stale t p (by rw [page_congr h.pages]; exact hs)]
    exact ⟨h.windows, h.pages, h.mergeNoted, h.pPort, h.holdCount, by simp only [h.copyQueue]⟩
  · rw [promote_other s p hs, promote_other t p (by rw [page_congr h.pages]; exact hs)]
    exact h

theorem producerSame_takeJudgement {s t : State} (h : ProducerSame s t) (a : Access) (j : Judgement) :
    ProducerSame (s.takeJudgement .p a j) (t.takeJudgement .p a j) := by
  have cleared : ∀ v : PortState,
      ProducerSame ((s.clearHold .p).setPort .p v) ((t.clearHold .p).setPort .p v) := fun v =>
    ⟨h.windows, h.pages, h.mergeNoted, rfl, rfl, h.copyQueue⟩
  cases j with
  | go r => exact cleared _
  | hold why w p =>
    cases why with
    | demand => exact producerSame_promote (cleared _) p
    | sealed =>
      have hs : t.sealedHold = s.sealedHold := by unfold State.sealedHold; rw [h.pPort]
      show ProducerSame ((if s.sealedHold then s else s.clearHold .p).setPhase .p _)
        ((if t.sealedHold then t else t.clearHold .p).setPhase .p _)
      rw [hs]
      split
      · exact ⟨h.windows, h.pages, h.mergeNoted, rfl, h.holdCount, h.copyQueue⟩
      · exact cleared _
  | refuse e => exact producerSame_record (cleared _) e e

theorem producerSame_settle {s t : State} (h : ProducerSame s t) : ProducerSame (s.settle .p) (t.settle .p) := by
  have hp : t.phaseOf .p = s.phaseOf .p := congrArg PortState.phase h.pPort
  have key : ∀ a, ProducerSame (s.judgeAccess .p a) (t.judgeAccess .p a) := fun a => by
    unfold State.judgeAccess
    rw [judge_congr h.windows h.pages]
    exact producerSame_takeJudgement (producerSame_noteMerge h a) a _
  unfold State.settle
  rw [hp]
  split
  · exact h
  · exact key _
  · exact key _
  · exact h

/-- Where at most one of the handlers makes a record, the producer's is judged before the consumer's; in every case the
two judgements are taken one after the other. -/
theorem rejudge_cases (s : State) :
    (∃ n, s.rejudge = (({ s with freeCount := n } : State).settle .p).settle .c) ∨
      ∃ n, s.rejudge = (({ s with freeCount := n } : State).settle .c).settle .p := by
  unfold State.rejudge
  dsimp only
  split
  · split
    · exact Or.inr ⟨_, rfl⟩
    · exact Or.inl ⟨_, rfl⟩
  · exact Or.inl ⟨s.freeCount, rfl⟩

theorem rejudge_of_no_record (s : State) (x : Port) (h : s.recordsNow x = false) :
    s.rejudge = (s.settle .p).settle .c := by
  unfold State.rejudge
  cases x <;> simp [h]

/-- R29: what judging anew does to the P-port Handler and what belongs to it is the producer's own judgement. -/
theorem producerSame_rejudge (s : State) : ProducerSame (s.settle .p) s.rejudge := by
  have hf : ∀ n, ProducerSame s { s with freeCount := n } := fun n => ⟨rfl, rfl, rfl, rfl, rfl, rfl⟩
  have hc : ∀ t : State, ProducerSame t (t.settle .c) := fun t => by
    rw [settle_consumer_eq]; exact ⟨rfl, rfl, rfl, rfl, rfl, rfl⟩
  have trans : ∀ {a b c : State}, ProducerSame a b → ProducerSame b c → ProducerSame a c := fun h k =>
    ⟨k.windows.trans h.windows, k.pages.trans h.pages, k.mergeNoted.trans h.mergeNoted, k.pPort.trans h.pPort,
      k.holdCount.trans h.holdCount, k.copyQueue.trans h.copyQueue⟩
  rcases rejudge_cases s with ⟨n, h⟩ | ⟨n, h⟩ <;> rw [h]
  · exact trans (producerSame_settle (hf n)) (hc _)
  · exact producerSame_settle (trans (hf n) (hc _))

theorem rejudge_pPort (s : State) : s.rejudge.pPort = (s.settle .p).pPort := (producerSame_rejudge s).pPort
theorem rejudge_holdCount (s : State) : s.rejudge.holdCount = (s.settle .p).holdCount :=
  (producerSame_rejudge s).holdCount
theorem rejudge_copyQueue (s : State) : s.rejudge.copyQueue = (s.settle .p).copyQueue :=
  (producerSame_rejudge s).copyQueue
theorem rejudge_mergeNoted (s : State) : s.rejudge.mergeNoted = (s.settle .p).mergeNoted :=
  (producerSame_rejudge s).mergeNoted

/-- The consumer's judgement depends on the windows, the pages and its own handler. -/
theorem settle_cPort_congr {s t : State} (h : t.windows = s.windows) (k : t.pages = s.pages) (c : t.cPort = s.cPort) :
    (t.settle .c).cPort = (s.settle .c).cPort := by
  have hp : t.phaseOf .c = s.phaseOf .c := congrArg PortState.phase c
  have key : ∀ a, (t.judgeAccess .c a).cPort = (s.judgeAccess .c a).cPort := fun a => by
    show (t.takeJudgement .c a (t.judge .c a)).cPort = (s.takeJudgement .c a (s.judge .c a)).cPort
    rw [judge_congr h k]
    cases hj : s.judge .c a with
    | go r => rfl
    | hold why w p => exact absurd hj (judge_consumer_never_holds s a why w p)
    | refuse e =>
      show (State.record _ e).cPort = (State.record _ e).cPort
      simp only [record_cPort]; rfl
  unfold State.settle
  rw [hp]
  split
  · exact c
  · exact key _
  · exact key _
  · exact c

/-- R29: what judging anew does to the C-port Handler is the consumer's own judgement. -/
theorem rejudge_cPort (s : State) : s.rejudge.cPort = (s.settle .c).cPort := by
  rcases rejudge_cases s with ⟨n, h⟩ | ⟨n, h⟩ <;> rw [h]
  · have hp := portsOnly_settle ({ s with freeCount := n } : State) .p
    exact settle_cPort_congr hp.windows hp.pages (settle_otherPort _ (x := .p) (y := .c) (by decide))
  · refine (settle_otherPort _ (x := .p) (y := .c) (by decide)).trans ?_
    exact settle_cPort_congr rfl rfl rfl

end Sys2Proof.Laws
end

