-- ==== Sys2Proof/Laws/Groups.lean ====
section
/-! SUPPORT. Laws of the Commit Controller: what a flip, a commit and a boundary can change. -/

namespace Sys2Proof.Laws

open Sys2Proof Sys2Proof.Machine

/-! ## What the Commit Controller can change -/

/-- The two states differ in the windows, the Page Map, the groups, the pending flip, the Copy Queue and the records
alone. -/
structure CommitOnly (s t : State) : Prop where
  pPort : t.pPort = s.pPort
  cPort : t.cPort = s.cPort
  holdCount : t.holdCount = s.holdCount
  holdMax : t.holdMax = s.holdMax
  mergeNoted : t.mergeNoted = s.mergeNoted
  engine : t.engine = s.engine
  mport : t.mport = s.mport
  freed : t.freed = s.freed
  streak : t.streak = s.streak
  pointer : t.pointer = s.pointer
  timer : t.timer = s.timer
  fsync : t.fsync = s.fsync
  frz : t.frz = s.frz
  freeze : t.freeze = s.freeze
  evmask : t.evmask = s.evmask
  irqEnable : t.irqEnable = s.irqEnable
  mgmt : t.mgmt = s.mgmt
  freeCount : t.freeCount = s.freeCount
  board : t.board = s.board
  pending : t.pending = s.pending

theorem CommitOnly.refl (s : State) : CommitOnly s s := by constructor <;> rfl

theorem CommitOnly.trans {s t u : State} (h : CommitOnly s t) (k : CommitOnly t u) : CommitOnly s u := by
  constructor
  · exact k.pPort.trans h.pPort
  · exact k.cPort.trans h.cPort
  · exact k.holdCount.trans h.holdCount
  · exact k.holdMax.trans h.holdMax
  · exact k.mergeNoted.trans h.mergeNoted
  · exact k.engine.trans h.engine
  · exact k.mport.trans h.mport
  · exact k.freed.trans h.freed
  · exact k.streak.trans h.streak
  · exact k.pointer.trans h.pointer
  · exact k.timer.trans h.timer
  · exact k.fsync.trans h.fsync
  · exact k.frz.trans h.frz
  · exact k.freeze.trans h.freeze
  · exact k.evmask.trans h.evmask
  · exact k.irqEnable.trans h.irqEnable
  · exact k.mgmt.trans h.mgmt
  · exact k.freeCount.trans h.freeCount
  · exact k.board.trans h.board
  · exact k.pending.trans h.pending

theorem commitOnly_foldl {α : Type} (f : State → α → State) (h : ∀ s a, CommitOnly s (f s a)) (l : List α) (s : State) :
    CommitOnly s (l.foldl f s) := by
  induction l generalizing s with
  | nil => exact CommitOnly.refl s
  | cons a l ih => exact (h s a).trans (ih _)

theorem commitOnly_record (s : State) (e : Event) : CommitOnly s (s.record e) := by constructor <;> simp

theorem commitOnly_setWindow (s : State) (w : Fin 8) (x : Window) : CommitOnly s (s.setWindow w x) := by
  constructor <;> rfl

theorem commitOnly_setGroup (s : State) (g : Fin 4) (x : Group) : CommitOnly s (s.setGroup g x) := by
  constructor <;> rfl

theorem commitOnly_flipWindow (s : State) (w : Fin 8) : CommitOnly s (s.flipWindow w) := by constructor <;> rfl

theorem commitOnly_flip (s : State) (f : TakenCommit) : CommitOnly s (s.flip f) :=
  (commitOnly_foldl _ commitOnly_flipWindow _ s).trans (commitOnly_foldl _ (fun _ _ => commitOnly_record _ _) _ _)

theorem commitOnly_takeCommit (s : State) (g : Fin 4) (o : Origin) : CommitOnly s (s.takeCommit g o) := by
  have h : CommitOnly s (s.groupIdle g) := commitOnly_setGroup _ _ _
  unfold State.takeCommit
  dsimp only
  split
  · exact h.trans (by constructor <;> rfl)
  · exact h.trans (commitOnly_flip _ _)

theorem commitOnly_applyOutcome (s : State) (g : Fin 4) (o : GroupOutcome) : CommitOnly s (s.applyOutcome g o) := by
  cases o with
  | nothing => exact CommitOnly.refl s
  | endDeferral => exact commitOnly_setGroup _ _ _
  | skip => exact commitOnly_record _ _
  | commit => exact commitOnly_takeCommit _ _ _
  | defer => exact (commitOnly_setGroup _ _ _).trans (commitOnly_record _ _)
  | force =>
    exact ((commitOnly_foldl _ (fun _ _ => commitOnly_setWindow _ _ _) _ s).trans (commitOnly_record _ _)).trans
      (commitOnly_takeCommit _ _ _)

theorem commitOnly_judgeGroups (s : State) : CommitOnly s s.judgeGroups :=
  (commitOnly_foldl (fun t g => t.applyOutcome g (s.groupOutcome g)) (fun _ _ => commitOnly_applyOutcome _ _ _) _ s).trans
    (by constructor <;> rfl)

theorem commitOnly_judgeClose (s : State) (g : Fin 4) : CommitOnly s (s.judgeClose g) := by
  unfold State.judgeClose
  split
  · exact CommitOnly.refl s
  · split
    · exact commitOnly_setGroup _ _ _
    · split
      · exact CommitOnly.refl s
      · split
        · exact CommitOnly.refl s
        · exact commitOnly_takeCommit _ _ _

@[simp] theorem flip_pPort (s : State) (f : TakenCommit) : (s.flip f).pPort = s.pPort :=
  (commitOnly_flip s f).pPort
@[simp] theorem flip_cPort (s : State) (f : TakenCommit) : (s.flip f).cPort = s.cPort :=
  (commitOnly_flip s f).cPort
@[simp] theorem flip_holdCount (s : State) (f : TakenCommit) : (s.flip f).holdCount = s.holdCount :=
  (commitOnly_flip s f).holdCount
@[simp] theorem flip_holdMax (s : State) (f : TakenCommit) : (s.flip f).holdMax = s.holdMax :=
  (commitOnly_flip s f).holdMax
@[simp] theorem flip_mergeNoted (s : State) (f : TakenCommit) : (s.flip f).mergeNoted = s.mergeNoted :=
  (commitOnly_flip s f).mergeNoted
@[simp] theorem flip_engine (s : State) (f : TakenCommit) : (s.flip f).engine = s.engine :=
  (commitOnly_flip s f).engine
@[simp] theorem flip_mport (s : State) (f : TakenCommit) : (s.flip f).mport = s.mport :=
  (commitOnly_flip s f).mport
@[simp] theorem flip_freed (s : State) (f : TakenCommit) : (s.flip f).freed = s.freed :=
  (commitOnly_flip s f).freed
@[simp] theorem flip_streak (s : State) (f : TakenCommit) : (s.flip f).streak = s.streak :=
  (commitOnly_flip s f).streak
@[simp] theorem flip_pointer (s : State) (f : TakenCommit) : (s.flip f).pointer = s.pointer :=
  (commitOnly_flip s f).pointer
@[simp] theorem flip_timer (s : State) (f : TakenCommit) : (s.flip f).timer = s.timer :=
  (commitOnly_flip s f).timer
@[simp] theorem flip_fsync (s : State) (f : TakenCommit) : (s.flip f).fsync = s.fsync :=
  (commitOnly_flip s f).fsync
@[simp] theorem flip_frz (s : State) (f : TakenCommit) : (s.flip f).frz = s.frz :=
  (commitOnly_flip s f).frz
@[simp] theorem flip_freeze (s : State) (f : TakenCommit) : (s.flip f).freeze = s.freeze :=
  (commitOnly_flip s f).freeze
@[simp] theorem flip_evmask (s : State) (f : TakenCommit) : (s.flip f).evmask = s.evmask :=
  (commitOnly_flip s f).evmask
@[simp] theorem flip_irqEnable (s : State) (f : TakenCommit) : (s.flip f).irqEnable = s.irqEnable :=
  (commitOnly_flip s f).irqEnable
@[simp] theorem flip_mgmt (s : State) (f : TakenCommit) : (s.flip f).mgmt = s.mgmt :=
  (commitOnly_flip s f).mgmt
@[simp] theorem flip_freeCount (s : State) (f : TakenCommit) : (s.flip f).freeCount = s.freeCount :=
  (commitOnly_flip s f).freeCount
@[simp] theorem flip_board (s : State) (f : TakenCommit) : (s.flip f).board = s.board :=
  (commitOnly_flip s f).board
@[simp] theorem flip_pending (s : State) (f : TakenCommit) : (s.flip f).pending = s.pending :=
  (commitOnly_flip s f).pending

@[simp] theorem takeCommit_pPort (s : State) (g : Fin 4) (o : Origin) : (s.takeCommit g o).pPort = s.pPort :=
  (commitOnly_takeCommit s g o).pPort
@[simp] theorem takeCommit_cPort (s : State) (g : Fin 4) (o : Origin) : (s.takeCommit g o).cPort = s.cPort :=
  (commitOnly_takeCommit s g o).cPort
@[simp] theorem takeCommit_holdCount (s : State) (g : Fin 4) (o : Origin) : (s.takeCommit g o).holdCount = s.holdCount :=
  (commitOnly_takeCommit s g o).holdCount
@[simp] theorem takeCommit_holdMax (s : State) (g : Fin 4) (o : Origin) : (s.takeCommit g o).holdMax = s.holdMax :=
  (commitOnly_takeCommit s g o).holdMax
@[simp] theorem takeCommit_mergeNoted (s : State) (g : Fin 4) (o : Origin) : (s.takeCommit g o).mergeNoted = s.mergeNoted :=
  (commitOnly_takeCommit s g o).mergeNoted
@[simp] theorem takeCommit_engine (s : State) (g : Fin 4) (o : Origin) : (s.takeCommit g o).engine = s.engine :=
  (commitOnly_takeCommit s g o).engine
@[simp] theorem takeCommit_mport (s : State) (g : Fin 4) (o : Origin) : (s.takeCommit g o).mport = s.mport :=
  (commitOnly_takeCommit s g o).mport
@[simp] theorem takeCommit_freed (s : State) (g : Fin 4) (o : Origin) : (s.takeCommit g o).freed = s.freed :=
  (commitOnly_takeCommit s g o).freed
@[simp] theorem takeCommit_streak (s : State) (g : Fin 4) (o : Origin) : (s.takeCommit g o).streak = s.streak :=
  (commitOnly_takeCommit s g o).streak
@[simp] theorem takeCommit_pointer (s : State) (g : Fin 4) (o : Origin) : (s.takeCommit g o).pointer = s.pointer :=
  (commitOnly_takeCommit s g o).pointer
@[simp] theorem takeCommit_timer (s : State) (g : Fin 4) (o : Origin) : (s.takeCommit g o).timer = s.timer :=
  (commitOnly_takeCommit s g o).timer
@[simp] theorem takeCommit_fsync (s : State) (g : Fin 4) (o : Origin) : (s.takeCommit g o).fsync = s.fsync :=
  (commitOnly_takeCommit s g o).fsync
@[simp] theorem takeCommit_frz (s : State) (g : Fin 4) (o : Origin) : (s.takeCommit g o).frz = s.frz :=
  (commitOnly_takeCommit s g o).frz
@[simp] theorem takeCommit_freeze (s : State) (g : Fin 4) (o : Origin) : (s.takeCommit g o).freeze = s.freeze :=
  (commitOnly_takeCommit s g o).freeze
@[simp] theorem takeCommit_evmask (s : State) (g : Fin 4) (o : Origin) : (s.takeCommit g o).evmask = s.evmask :=
  (commitOnly_takeCommit s g o).evmask
@[simp] theorem takeCommit_irqEnable (s : State) (g : Fin 4) (o : Origin) : (s.takeCommit g o).irqEnable = s.irqEnable :=
  (commitOnly_takeCommit s g o).irqEnable
@[simp] theorem takeCommit_mgmt (s : State) (g : Fin 4) (o : Origin) : (s.takeCommit g o).mgmt = s.mgmt :=
  (commitOnly_takeCommit s g o).mgmt
@[simp] theorem takeCommit_freeCount (s : State) (g : Fin 4) (o : Origin) : (s.takeCommit g o).freeCount = s.freeCount :=
  (commitOnly_takeCommit s g o).freeCount
@[simp] theorem takeCommit_board (s : State) (g : Fin 4) (o : Origin) : (s.takeCommit g o).board = s.board :=
  (commitOnly_takeCommit s g o).board
@[simp] theorem takeCommit_pending (s : State) (g : Fin 4) (o : Origin) : (s.takeCommit g o).pending = s.pending :=
  (commitOnly_takeCommit s g o).pending

@[simp] theorem judgeGroups_pPort (s : State) : s.judgeGroups.pPort = s.pPort :=
  (commitOnly_judgeGroups s).pPort
@[simp] theorem judgeGroups_cPort (s : State) : s.judgeGroups.cPort = s.cPort :=
  (commitOnly_judgeGroups s).cPort
@[simp] theorem judgeGroups_holdCount (s : State) : s.judgeGroups.holdCount = s.holdCount :=
  (commitOnly_judgeGroups s).holdCount
@[simp] theorem judgeGroups_holdMax (s : State) : s.judgeGroups.holdMax = s.holdMax :=
  (commitOnly_judgeGroups s).holdMax
@[simp] theorem judgeGroups_mergeNoted (s : State) : s.judgeGroups.mergeNoted = s.mergeNoted :=
  (commitOnly_judgeGroups s).mergeNoted
@[simp] theorem judgeGroups_engine (s : State) : s.judgeGroups.engine = s.engine :=
  (commitOnly_judgeGroups s).engine
@[simp] theorem judgeGroups_mport (s : State) : s.judgeGroups.mport = s.mport :=
  (commitOnly_judgeGroups s).mport
@[simp] theorem judgeGroups_freed (s : State) : s.judgeGroups.freed = s.freed :=
  (commitOnly_judgeGroups s).freed
@[simp] theorem judgeGroups_streak (s : State) : s.judgeGroups.streak = s.streak :=
  (commitOnly_judgeGroups s).streak
@[simp] theorem judgeGroups_pointer (s : State) : s.judgeGroups.pointer = s.pointer :=
  (commitOnly_judgeGroups s).pointer
@[simp] theorem judgeGroups_timer (s : State) : s.judgeGroups.timer = s.timer :=
  (commitOnly_judgeGroups s).timer
@[simp] theorem judgeGroups_fsync (s : State) : s.judgeGroups.fsync = s.fsync :=
  (commitOnly_judgeGroups s).fsync
@[simp] theorem judgeGroups_frz (s : State) : s.judgeGroups.frz = s.frz :=
  (commitOnly_judgeGroups s).frz
@[simp] theorem judgeGroups_freeze (s : State) : s.judgeGroups.freeze = s.freeze :=
  (commitOnly_judgeGroups s).freeze
@[simp] theorem judgeGroups_evmask (s : State) : s.judgeGroups.evmask = s.evmask :=
  (commitOnly_judgeGroups s).evmask
@[simp] theorem judgeGroups_irqEnable (s : State) : s.judgeGroups.irqEnable = s.irqEnable :=
  (commitOnly_judgeGroups s).irqEnable
@[simp] theorem judgeGroups_mgmt (s : State) : s.judgeGroups.mgmt = s.mgmt :=
  (commitOnly_judgeGroups s).mgmt
@[simp] theorem judgeGroups_freeCount (s : State) : s.judgeGroups.freeCount = s.freeCount :=
  (commitOnly_judgeGroups s).freeCount
@[simp] theorem judgeGroups_board (s : State) : s.judgeGroups.board = s.board :=
  (commitOnly_judgeGroups s).board
@[simp] theorem judgeGroups_pending (s : State) : s.judgeGroups.pending = s.pending :=
  (commitOnly_judgeGroups s).pending

@[simp] theorem judgeClose_pPort (s : State) (g : Fin 4) : (s.judgeClose g).pPort = s.pPort :=
  (commitOnly_judgeClose s g).pPort
@[simp] theorem judgeClose_cPort (s : State) (g : Fin 4) : (s.judgeClose g).cPort = s.cPort :=
  (commitOnly_judgeClose s g).cPort
@[simp] theorem judgeClose_holdCount (s : State) (g : Fin 4) : (s.judgeClose g).holdCount = s.holdCount :=
  (commitOnly_judgeClose s g).holdCount
@[simp] theorem judgeClose_holdMax (s : State) (g : Fin 4) : (s.judgeClose g).holdMax = s.holdMax :=
  (commitOnly_judgeClose s g).holdMax
@[simp] theorem judgeClose_mergeNoted (s : State) (g : Fin 4) : (s.judgeClose g).mergeNoted = s.mergeNoted :=
  (commitOnly_judgeClose s g).mergeNoted
@[simp] theorem judgeClose_engine (s : State) (g : Fin 4) : (s.judgeClose g).engine = s.engine :=
  (commitOnly_judgeClose s g).engine
@[simp] theorem judgeClose_mport (s : State) (g : Fin 4) : (s.judgeClose g).mport = s.mport :=
  (commitOnly_judgeClose s g).mport
@[simp] theorem judgeClose_freed (s : State) (g : Fin 4) : (s.judgeClose g).freed = s.freed :=
  (commitOnly_judgeClose s g).freed
@[simp] theorem judgeClose_streak (s : State) (g : Fin 4) : (s.judgeClose g).streak = s.streak :=
  (commitOnly_judgeClose s g).streak
@[simp] theorem judgeClose_pointer (s : State) (g : Fin 4) : (s.judgeClose g).pointer = s.pointer :=
  (commitOnly_judgeClose s g).pointer
@[simp] theorem judgeClose_timer (s : State) (g : Fin 4) : (s.judgeClose g).timer = s.timer :=
  (commitOnly_judgeClose s g).timer
@[simp] theorem judgeClose_fsync (s : State) (g : Fin 4) : (s.judgeClose g).fsync = s.fsync :=
  (commitOnly_judgeClose s g).fsync
@[simp] theorem judgeClose_frz (s : State) (g : Fin 4) : (s.judgeClose g).frz = s.frz :=
  (commitOnly_judgeClose s g).frz
@[simp] theorem judgeClose_freeze (s : State) (g : Fin 4) : (s.judgeClose g).freeze = s.freeze :=
  (commitOnly_judgeClose s g).freeze
@[simp] theorem judgeClose_evmask (s : State) (g : Fin 4) : (s.judgeClose g).evmask = s.evmask :=
  (commitOnly_judgeClose s g).evmask
@[simp] theorem judgeClose_irqEnable (s : State) (g : Fin 4) : (s.judgeClose g).irqEnable = s.irqEnable :=
  (commitOnly_judgeClose s g).irqEnable
@[simp] theorem judgeClose_mgmt (s : State) (g : Fin 4) : (s.judgeClose g).mgmt = s.mgmt :=
  (commitOnly_judgeClose s g).mgmt
@[simp] theorem judgeClose_freeCount (s : State) (g : Fin 4) : (s.judgeClose g).freeCount = s.freeCount :=
  (commitOnly_judgeClose s g).freeCount
@[simp] theorem judgeClose_board (s : State) (g : Fin 4) : (s.judgeClose g).board = s.board :=
  (commitOnly_judgeClose s g).board
@[simp] theorem judgeClose_pending (s : State) (g : Fin 4) : (s.judgeClose g).pending = s.pending :=
  (commitOnly_judgeClose s g).pending

/-! ## The hold count at a boundary -/

theorem portsOnly_timeOut (s : State) (a : Access) (w : Fin 8) (p : Fin 512) : PortsOnly s (s.timeOut a w p) :=
  ((portsOnly_clearHold s .p).trans (portsOnly_setPort _ _ _)).trans (portsOnly_record _ _)

theorem portsOnly_holdBoundary (s : State) (taken : Fin 8 → Bool) : PortsOnly s (s.holdBoundary taken) := by
  unfold State.holdBoundary
  split
  · split
    · exact PortsOnly.refl s
    · split
      · exact portsOnly_timeOut s _ _ _
      · constructor <;> rfl
  · exact PortsOnly.refl s

/-! ## A boundary delivered -/

@[simp] theorem deliver_holdMax (s : State) : s.deliver.holdMax = s.holdMax := by
  simp [State.deliver, (portsOnly_holdBoundary s.judgeGroups s.boundaryTakes).holdMax]
@[simp] theorem deliver_engine (s : State) : s.deliver.engine = s.engine := by
  simp [State.deliver, (portsOnly_holdBoundary s.judgeGroups s.boundaryTakes).engine]
@[simp] theorem deliver_mport (s : State) : s.deliver.mport = s.mport := by
  simp [State.deliver, (portsOnly_holdBoundary s.judgeGroups s.boundaryTakes).mport]
@[simp] theorem deliver_freed (s : State) : s.deliver.freed = s.freed := by
  simp [State.deliver, (portsOnly_holdBoundary s.judgeGroups s.boundaryTakes).freed]
@[simp] theorem deliver_streak (s : State) : s.deliver.streak = s.streak := by
  simp [State.deliver, (portsOnly_holdBoundary s.judgeGroups s.boundaryTakes).streak]
@[simp] theorem deliver_pointer (s : State) : s.deliver.pointer = s.pointer := by
  simp [State.deliver, (portsOnly_holdBoundary s.judgeGroups s.boundaryTakes).pointer]
@[simp] theorem deliver_timer (s : State) : s.deliver.timer = s.timer := by
  simp [State.deliver, (portsOnly_holdBoundary s.judgeGroups s.boundaryTakes).timer]
@[simp] theorem deliver_fsync (s : State) : s.deliver.fsync = s.fsync := by
  simp [State.deliver, (portsOnly_holdBoundary s.judgeGroups s.boundaryTakes).fsync]
@[simp] theorem deliver_frz (s : State) : s.deliver.frz = s.frz := by
  simp [State.deliver, (portsOnly_holdBoundary s.judgeGroups s.boundaryTakes).frz]
@[simp] theorem deliver_freeze (s : State) : s.deliver.freeze = s.freeze := by
  simp [State.deliver, (portsOnly_holdBoundary s.judgeGroups s.boundaryTakes).freeze]
@[simp] theorem deliver_evmask (s : State) : s.deliver.evmask = s.evmask := by
  simp [State.deliver, (portsOnly_holdBoundary s.judgeGroups s.boundaryTakes).evmask]
@[simp] theorem deliver_irqEnable (s : State) : s.deliver.irqEnable = s.irqEnable := by
  simp [State.deliver, (portsOnly_holdBoundary s.judgeGroups s.boundaryTakes).irqEnable]
@[simp] theorem deliver_mgmt (s : State) : s.deliver.mgmt = s.mgmt := by
  simp [State.deliver, (portsOnly_holdBoundary s.judgeGroups s.boundaryTakes).mgmt]
@[simp] theorem deliver_board (s : State) : s.deliver.board = s.board := by
  simp [State.deliver, (portsOnly_holdBoundary s.judgeGroups s.boundaryTakes).board]
@[simp] theorem deliver_pending (s : State) : s.deliver.pending = s.pending := by
  simp [State.deliver, (portsOnly_holdBoundary s.judgeGroups s.boundaryTakes).pending]

/-- What a delivered boundary does to the windows and the Page Map is what the Commit Controller does. -/
theorem deliver_windows (s : State) : s.deliver.windows = s.judgeGroups.windows := by
  simp [State.deliver, (portsOnly_holdBoundary s.judgeGroups s.boundaryTakes).windows]

theorem deliver_pages (s : State) : s.deliver.pages = s.judgeGroups.pages := by
  simp [State.deliver, (portsOnly_holdBoundary s.judgeGroups s.boundaryTakes).pages]

theorem deliver_groups (s : State) : s.deliver.groups = s.judgeGroups.groups := by
  simp [State.deliver, (portsOnly_holdBoundary s.judgeGroups s.boundaryTakes).groups]

theorem deliver_pendingFlip (s : State) : s.deliver.pendingFlip = s.judgeGroups.pendingFlip := by
  simp [State.deliver, (portsOnly_holdBoundary s.judgeGroups s.boundaryTakes).pendingFlip]

/-! ## The flip of one window (R101) -/

theorem flipWindow_window (s : State) (w v : Fin 8) :
    (s.flipWindow w).window v =
      if v = w then { s.window w with commit := .isOpen, committedTag := (s.window w).armedTag,
                                      lastCommitFrame := s.timer.frame }
      else s.window v := by
  show (State.setWindow _ w _).window v = _
  rw [window_setWindow]; rfl

theorem flipWindow_page (s : State) (w : Fin 8) (p : Fin 512) :
    (s.flipWindow w).page p =
      if (s.desc w).inRun p = true ∧ (s.page p).state = .dirty then (s.page p).flipped else s.page p := by
  show (s.mapPages fun q e => if (s.desc w).inRun q && e.state == .dirty then e.flipped else e).page p = _
  rw [page_mapPages]; simp

theorem flipWindow_copyQueue (s : State) (w : Fin 8) :
    (s.flipWindow w).copyQueue = s.copyQueue ++ s.pagesIn (s.desc w) .dirty := rfl

theorem flipWindow_groups (s : State) (w : Fin 8) : (s.flipWindow w).groups = s.groups := rfl

theorem flipWindow_pendingFlip (s : State) (w : Fin 8) : (s.flipWindow w).pendingFlip = s.pendingFlip := rfl

/-! ## The records of a commit -/

/-- The flip but for its records. -/
theorem flip_eq (s : State) (f : TakenCommit) :
    s.flip f = { (f.set.filter s.enabled).foldl State.flipWindow s with
      events := (s.flip f).events, overrun := (s.flip f).overrun } := by
  have h : ∀ (l : List (Fin 8)) (t : State) (c : Fin 8 → Nat),
      l.foldl (fun u w => u.recordCommit f.group f.origin w (c w)) t =
        { t with events := (l.foldl (fun u w => u.recordCommit f.group f.origin w (c w)) t).events,
                 overrun := (l.foldl (fun u w => u.recordCommit f.group f.origin w (c w)) t).overrun } := by
    intro l
    induction l with
    | nil => intro t c; rfl
    | cons w l ih =>
      intro t c
      simp only [List.foldl_cons]
      rw [ih]
      unfold State.recordCommit
      rw [record_eq]
  exact h _ _ _

end Sys2Proof.Laws
end

