-- ==== Sys2Proof/Laws/Arbiter.lean ====
section
/-! SUPPORT. Laws of the Memory Arbiter: what taking the grant that is due leaves as it was, and in which state every
other event is taken. -/

namespace Sys2Proof.Laws

open Sys2Proof Sys2Proof.Machine

/-- The two states agree in all that no grant touches: the timer, the inputs, the Freeze Unit, the configuration, the
management port and the two queues of what is to come. -/
structure GrantFrame (s t : State) : Prop where
  timer : t.timer = s.timer
  fsync : t.fsync = s.fsync
  frz : t.frz = s.frz
  freeze : t.freeze = s.freeze
  evmask : t.evmask = s.evmask
  irqEnable : t.irqEnable = s.irqEnable
  holdMax : t.holdMax = s.holdMax
  mgmt : t.mgmt = s.mgmt
  board : t.board = s.board
  pending : t.pending = s.pending

theorem GrantFrame.refl (s : State) : GrantFrame s s := by constructor <;> rfl

theorem GrantFrame.trans {s t u : State} (h : GrantFrame s t) (k : GrantFrame t u) : GrantFrame s u := by
  constructor
  · exact k.timer.trans h.timer
  · exact k.fsync.trans h.fsync
  · exact k.frz.trans h.frz
  · exact k.freeze.trans h.freeze
  · exact k.evmask.trans h.evmask
  · exact k.irqEnable.trans h.irqEnable
  · exact k.holdMax.trans h.holdMax
  · exact k.mgmt.trans h.mgmt
  · exact k.board.trans h.board
  · exact k.pending.trans h.pending

theorem grantFrame_takeMarker (s : State) (a : Access) (w : Fin 8) (m : Marker) :
    GrantFrame s (s.takeMarker a w m) ∧ (s.takeMarker a w m).mport = s.mport := by
  cases m
  · show GrantFrame s (s.commitMarker _ _) ∧ (s.commitMarker _ _).mport = _
    unfold State.commitMarker
    dsimp only
    repeat' split
    all_goals exact ⟨by constructor <;> simp, by simp⟩
  · show GrantFrame s (s.leaseOpen _) ∧ (s.leaseOpen _).mport = _
    unfold State.leaseOpen
    split
    all_goals exact ⟨by constructor <;> simp, by simp⟩
  · show GrantFrame s (s.leaseClose _) ∧ (s.leaseClose _).mport = _
    unfold State.leaseClose
    split
    all_goals exact ⟨by constructor <;> simp, by simp⟩

theorem grantFrame_grantEffect (s : State) (a : Access) (r : Resolution) : GrantFrame s (s.grantEffect a r) := by
  unfold State.grantEffect
  split <;> first | exact (grantFrame_takeMarker _ _ _ _).1 | exact GrantFrame.refl _

theorem mport_grantEffect (s : State) (a : Access) (r : Resolution) : (s.grantEffect a r).mport = s.mport := by
  unfold State.grantEffect
  split <;> first | exact (grantFrame_takeMarker _ _ _ _).2 | rfl

theorem grantFrame_grantPort (s : State) (x : Port) (q : Requester) : GrantFrame s (s.grantPort x q) := by
  unfold State.grantPort
  split
  · refine GrantFrame.trans ?_ (grantFrame_grantEffect _ _ _)
    cases x <;> constructor <;> rfl
  · exact GrantFrame.refl s

/-- A port handler whose request stands holds the M-port after its grant. -/
theorem mport_grantPort (s : State) (x : Port) (q : Requester) (h : s.portRequests x = true) :
    ∃ a, (s.grantPort x q).mport = .busy q a := by
  unfold State.portRequests at h
  unfold State.grantPort
  split at h
  · next a r e => exact ⟨_, mport_grantEffect _ _ _⟩
  · cases h

/-- Nothing a marker does touches the decision at a freeing. -/
theorem freed_grantEffect (s : State) (a : Access) (r : Resolution) : (s.grantEffect a r).freed = s.freed := by
  unfold State.grantEffect
  split
  · next w m _ =>
    cases m
    · show (s.commitMarker _ _).freed = _
      unfold State.commitMarker
      dsimp only
      repeat' split
      all_goals simp
    · show (s.leaseOpen _).freed = _
      unfold State.leaseOpen
      split <;> simp
    · show (s.leaseClose _).freed = _
      unfold State.leaseClose
      split <;> simp
  all_goals rfl

theorem freed_grantPort (s : State) (x : Port) (q : Requester) (h : s.portRequests x = true) :
    (s.grantPort x q).freed = false := by
  unfold State.portRequests at h
  unfold State.grantPort
  split at h
  · exact freed_grantEffect _ _ _
  · cases h

theorem grantFrame_grantEngine (s : State) : GrantFrame s s.grantEngine := by
  unfold State.grantEngine State.startCopy
  repeat' split
  all_goals constructor <;> simp [State.setEngine]

theorem grantFrame_noteGrant (s : State) (q : Requester) : GrantFrame s (s.noteGrant q) := by
  cases q <;> constructor <;> rfl

theorem grantFrame_grantTo (s : State) (q : Requester) : GrantFrame s (s.grantTo q) := by
  cases q
  · exact (grantFrame_noteGrant s _).trans (grantFrame_grantPort _ _ _)
  · exact (grantFrame_noteGrant s _).trans (grantFrame_grantPort _ _ _)
  · refine ((grantFrame_noteGrant s .copy).trans (grantFrame_grantEngine _)).trans ?_
    constructor <;> rfl

theorem grantFrame_rejudge (s : State) : GrantFrame s s.rejudge := by constructor <;> simp

/-- Taking the grant that is due changes nothing but what a grant hands over. -/
theorem grantFrame_arbitrated (s : State) : GrantFrame s s.arbitrated := by
  unfold State.arbitrated
  split
  · exact GrantFrame.refl s
  · exact (grantFrame_grantTo s _).trans (grantFrame_rejudge _)

theorem arbitrated_none {s : State} (h : s.decision = none) : s.arbitrated = s := by
  unfold State.arbitrated; rw [h]

theorem arbitrated_some {s : State} {q : Requester} (h : s.decision = some q) : s.arbitrated = (s.grantTo q).rejudge := by
  unfold State.arbitrated; rw [h]

/-- The requester chosen is one whose request stands. -/
theorem chooseGrant_stands {c p e d : Bool} {n : Nat} {x : Pointer} {q : Requester}
    (h : chooseGrant c p e d n x = some q) :
    (q = .consumer ∧ c = true) ∨ (q = .producer ∧ p = true) ∨ (q = .copy ∧ e = true) := by
  unfold chooseGrant rankThree at h
  cases c <;> cases p <;> cases e <;> cases d <;> cases x <;> simp at h <;> (try split at h) <;> simp_all

/-- R136: while the M-port is BUSY no grant is due. -/
theorem decision_busy {s : State} {q : Requester} {a : Access} (h : s.mport = .busy q a) : s.decision = none := by
  unfold State.decision; rw [h]

/-- R133: a grant that is due makes the M-port BUSY. -/
theorem mport_grantTo {s : State} {q : Requester} (h : s.decision = some q) : ∃ a, (s.grantTo q).mport = .busy q a := by
  unfold State.decision at h
  split at h
  · cases h
  · rcases chooseGrant_stands h with ⟨rfl, k⟩ | ⟨rfl, k⟩ | ⟨rfl, _⟩
    · exact mport_grantPort _ _ _ k
    · exact mport_grantPort _ _ _ k
    · exact ⟨_, rfl⟩

/-- R136: after the grant that is due, none is. -/
theorem decision_arbitrated (s : State) : s.arbitrated.decision = none := by
  cases h : s.decision with
  | none => rw [arbitrated_none h, h]
  | some q =>
    obtain ⟨a, k⟩ := mport_grantTo h
    rw [arbitrated_some h]
    exact decision_busy (a := a) (by rw [rejudge_mport, k])

theorem arbitrated_arbitrated (s : State) : s.arbitrated.arbitrated = s.arbitrated :=
  arbitrated_none (decision_arbitrated s)

/-- R133: a grant that is due closes the decision at a freeing. -/
theorem freed_arbitrated {s : State} {q : Requester} (h : s.decision = some q) : s.arbitrated.freed = false := by
  rw [arbitrated_some h, rejudge_freed]
  unfold State.decision at h
  split at h
  · cases h
  · rcases chooseGrant_stands h with ⟨rfl, k⟩ | ⟨rfl, k⟩ | ⟨rfl, _⟩
    · exact freed_grantPort _ _ _ k
    · exact freed_grantPort _ _ _ k
    · rfl

/-! ## The state an event is taken in -/

theorem withFreed_self {s : State} {b : Bool} (h : s.freed = b) : ({ s with freed := b } : State) = s := by
  subst h; rfl

theorem settled_settled (s : State) : s.settled.Settled := by
  unfold State.settled
  split
  · next h => exact (congrArg Option.isSome (show ({ s with freed := false } : State).decision = none from h)).symm
  · next q h =>
    split
    · next k => show s.freed = _; rw [h, k]; rfl
    · show s.arbitrated.freed = _; rw [freed_arbitrated h, decision_arbitrated]; rfl

theorem settled_of_settled {s : State} (h : s.Settled) : s.settled = s := by
  unfold State.settled
  split
  · next k => exact withFreed_self (h.trans (congrArg Option.isSome k))
  · next k => exact if_pos (h.trans (congrArg Option.isSome k))

/-- R136: where no decision at a freeing is open, the grant that is due comes first. -/
theorem settled_of_not_freed {s : State} (h : s.freed = false) : s.settled = s.arbitrated := by
  unfold State.settled
  split
  · next k => rw [arbitrated_none k]; exact withFreed_self h
  · rw [if_neg (by rw [h]; exact Bool.false_ne_true)]

/-- An event that no grant comes before. -/
theorem event_settled {s : State} (f : State → State) (h : s.Settled) : s.event f = .next (f s) := by
  unfold State.event; rw [settled_of_settled h]

/-- R136: an event comes after the grant that is taken before it. -/
theorem event_of_settled (s : State) (f : State → State) : s.settled.event f = s.event f := by
  unfold State.event; rw [settled_of_settled (settled_settled s)]

/-- Every command but GRANT and MEMORY_RESPONSE is an event: it acts on the settled state. -/
theorem exec_settled {c : Instr} (s : State) (h : c ≠ .grant) (k : ∀ r d, c ≠ .memoryResponse r d) :
    exec c s.settled = exec c s := by
  cases c <;> first | exact absurd rfl h | exact absurd rfl (k _ _) | simp only [exec,
    execAccessAccepted, execTick, execPeriodEnd, execSynthesizedBoundary, execFsyncEdge, execHoldTimeout,
    execFstbPulseEnd, execFrzRise, execFrzFall, execHardReset, execReadReg, execWriteReg, execDescriptorWrite,
    execDevstatWrite, execDevctlWrite, execEvmaskWrite, execFmodeWrite, execFpreWrite, execFperWrite,
    execFcutWrite, execFminWrite, execFndivWrite, execDeflimWrite, execPopEvent, execBadCommand, execUnknownAction,
    execTransactionCutShort, execEnable, execDisable, execDisarm, execResync, execBoundary, execFreeze,
    execRelease, execEngineReset, execFsyncFall, execMcsnRisingEdge, event_of_settled]

/-- R136: where no decision at a freeing is open, every command but GRANT acts on the state after the due grant; a
response does from every state. -/
theorem exec_arbitrated {c : Instr} (s : State) (h : c ≠ .grant)
    (k : s.freed = false ∨ ∃ r d, c = .memoryResponse r d) : exec c s.arbitrated = exec c s := by
  by_cases hr : ∃ r d, c = .memoryResponse r d
  · obtain ⟨r, d, rfl⟩ := hr
    show Host.Outcome.next (s.arbitrated.arbitrated.response r d) = _
    rw [arbitrated_arbitrated]; rfl
  · have hn : ∀ r d, c ≠ .memoryResponse r d := fun r d e => hr ⟨r, d, e⟩
    rw [← settled_of_not_freed (k.resolve_right hr)]
    exact exec_settled s h hn

end Sys2Proof.Laws
end

