-- ==== Sys2Proof/Laws/Boundary.lean ====
section
/-! SUPPORT. Laws of the flip of a set and of the judgement of the groups at a boundary: what each leaves in every
window, page and group. -/

namespace Sys2Proof.Laws

open Sys2Proof Sys2Proof.Machine

/-! ## The flip of a set (R101) -/

/-- R101: a window at the flip. -/
def flippedWindow (s : State) (x : Window) : Window :=
  { x with commit := .isOpen, committedTag := x.armedTag, lastCommitFrame := s.timer.frame }

theorem desc_flipWindow (s : State) (w v : Fin 8) : (s.flipWindow w).desc v = s.desc v := by
  unfold State.desc
  rw [flipWindow_window]
  split
  · next h => rw [h]
  · rfl

theorem foldl_flipWindow_window (ws : List (Fin 8)) (s : State) (v : Fin 8) :
    (ws.foldl State.flipWindow s).window v = if v ∈ ws then flippedWindow s (s.window v) else s.window v := by
  induction ws generalizing s with
  | nil => simp
  | cons w l ih =>
    rw [List.foldl_cons, ih, flipWindow_window]
    have ht : (s.flipWindow w).timer = s.timer := rfl
    by_cases h : v = w
    · subst h; by_cases hl : v ∈ l <;> simp [hl, flippedWindow, ht]
    · by_cases hl : v ∈ l <;> simp [hl, h, flippedWindow, ht]

theorem foldl_flipWindow_desc (ws : List (Fin 8)) (s : State) (v : Fin 8) :
    (ws.foldl State.flipWindow s).desc v = s.desc v := by
  induction ws generalizing s with
  | nil => rfl
  | cons w l ih => rw [List.foldl_cons, ih, desc_flipWindow]

theorem foldl_flipWindow_page (ws : List (Fin 8)) (s : State) (p : Fin 512) :
    (ws.foldl State.flipWindow s).page p =
      if (s.page p).state = .dirty ∧ (∃ w ∈ ws, (s.desc w).inRun p = true) then (s.page p).flipped else s.page p := by
  induction ws generalizing s with
  | nil => simp
  | cons w l ih =>
    rw [List.foldl_cons, ih, flipWindow_page]
    by_cases hd : (s.page p).state = .dirty
    · by_cases hw : (s.desc w).inRun p = true
      · simp [hd, hw, PageEntry.flipped]
      · simp [hd, hw, desc_flipWindow]
    · simp [hd]

theorem foldl_flipWindow_groups (ws : List (Fin 8)) (s : State) :
    (ws.foldl State.flipWindow s).groups = s.groups ∧ (ws.foldl State.flipWindow s).pendingFlip = s.pendingFlip := by
  induction ws generalizing s with
  | nil => exact ⟨rfl, rfl⟩
  | cons w l ih => rw [List.foldl_cons]; exact ih _

theorem flip_window (s : State) (f : TakenCommit) (v : Fin 8) :
    (s.flip f).window v = if v ∈ f.set ∧ s.enabled v = true then flippedWindow s (s.window v) else s.window v := by
  rw [flip_eq]
  exact (foldl_flipWindow_window _ s v).trans (by simp)

theorem flip_page (s : State) (f : TakenCommit) (p : Fin 512) :
    (s.flip f).page p =
      if (s.page p).state = .dirty ∧ (∃ w ∈ f.set, s.enabled w = true ∧ (s.desc w).inRun p = true)
      then (s.page p).flipped else s.page p := by
  rw [flip_eq]
  exact (foldl_flipWindow_page _ s p).trans (by simp [and_assoc])

@[simp] theorem flip_groups (s : State) (f : TakenCommit) : (s.flip f).groups = s.groups := by
  rw [flip_eq]; exact (foldl_flipWindow_groups _ s).1

@[simp] theorem flip_pendingFlip (s : State) (f : TakenCommit) : (s.flip f).pendingFlip = s.pendingFlip := by
  rw [flip_eq]; exact (foldl_flipWindow_groups _ s).2

/-! ## One group at a boundary -/

theorem mem_allWindows (w : Fin 8) : w ∈ allWindows := by revert w; decide

theorem mem_members (s : State) (g : Fin 4) (w : Fin 8) : w ∈ s.members g ↔ s.isMember g w = true := by
  simp [State.members, mem_allWindows]

theorem isMember_enabled {s : State} {g : Fin 4} {w : Fin 8} (h : s.isMember g w = true) : s.enabled w = true := by
  unfold State.isMember at h; exact (Bool.and_eq_true_iff.1 h).1

/-- R84: a window is a member of one group. -/
theorem isMember_unique {s : State} {g k : Fin 4} {w : Fin 8} (h : s.isMember g w = true) (j : s.isMember k w = true) :
    g = k := by
  simp only [State.isMember, Bool.and_eq_true, beq_iff_eq] at h j
  exact Fin.ext (h.2.symm.trans j.2)

/-- R85: the members of a ready group are ARMED. -/
theorem groupReady_armed {s : State} {g : Fin 4} (h : s.groupReady g = true) :
    ∀ w, s.isMember g w = true → (s.window w).commit = .armed := by
  intro w hw
  simp only [State.groupReady, Bool.and_eq_true, List.all_eq_true, beq_iff_eq] at h
  exact h.1.2 w ((mem_members s g w).2 hw)

/-- R88: the outcome of the group at a boundary is a commit, ordinary or forced. -/
def takesCommit (s : State) (g : Fin 4) : Bool := s.groupOutcome g == .commit || s.groupOutcome g == .force

/-- R100: the commit of the group flips within the boundary. -/
def flipsNow (s : State) (g : Fin 4) : Bool := takesCommit s g && !s.issuedInto (s.members g)

theorem takesCommit_ready {s : State} {g : Fin 4} (h : takesCommit s g = true) : s.groupReady g = true := by
  unfold takesCommit State.groupOutcome at h
  split at h
  · split at h <;> simp at h
  · next k => simpa using k

/-- R90, R100, R101: a member of group `g` when the boundary has judged it. -/
def memberAfter (s : State) (g : Fin 4) (w : Fin 8) : Window :=
  let x := s.window w
  let y := if s.groupOutcome g = .force ∧ x.bracket = .isOpen then { x with bracket := .revoked } else x
  if flipsNow s g then flippedWindow s y else y

/-- R86, R88: a group when the boundary has judged it. -/
def groupAfter (s : State) (g : Fin 4) : Group :=
  match s.groupOutcome g with
  | .nothing => s.group g
  | .skip => s.group g
  | .endDeferral => { s.group g with state := .idle, count := 0#4 }
  | .commit => { s.group g with state := .idle, count := 0#4 }
  | .force => { s.group g with state := .idle, count := 0#4 }
  | .defer => { s.group g with state := .deferred, count := (s.group g).count + 1#4 }

/-- R100: the commit of the group as it waits. -/
def waitingCommit (s : State) (g : Fin 4) : TakenCommit :=
  { group := g, set := s.members g, origin := if s.groupOutcome g = .force then .forced else .boundary }

theorem memberAfter_desc (s : State) (g : Fin 4) (w : Fin 8) : (memberAfter s g w).desc = s.desc w := by
  unfold memberAfter flippedWindow State.desc; dsimp only; split <;> split <;> rfl

theorem memberAfter_enable (s : State) (g : Fin 4) (w : Fin 8) : (memberAfter s g w).enable = (s.window w).enable := by
  unfold memberAfter flippedWindow; dsimp only; split <;> split <;> rfl

/-- A commit whose members are all ARMED, whole. -/
theorem takeCommit_eq (s : State) (g : Fin 4) (o : Origin) (h : ∀ w, s.isMember g w = true → (s.window w).commit = .armed) :
    s.takeCommit g o =
      if s.issuedInto (s.members g) then
        { s.groupIdle g with pendingFlip := some { group := g, set := s.members g, origin := o } }
      else (s.groupIdle g).flip { group := g, set := s.members g, origin := o } := by
  have hs : ((s.members g).filter fun w => (s.window w).commit == .armed) = s.members g := by
    apply List.filter_eq_self.2
    intro w hw
    rw [h w ((mem_members s g w).1 hw)]; rfl
  unfold State.takeCommit
  dsimp only
  rw [hs]
  rfl

/-- A state of a boundary in which the groups in `done` have been judged. -/
structure Judged (s : State) (done : List (Fin 4)) (t : State) : Prop where
  only : CommitOnly s t
  member : ∀ g ∈ done, ∀ w, s.isMember g w = true → t.window w = memberAfter s g w
  others : ∀ w, (∀ g ∈ done, s.isMember g w = false) → t.window w = s.window w
  page : ∀ p, t.page p =
    if (s.page p).state = .dirty ∧
      (∃ g ∈ done, flipsNow s g = true ∧ ∃ w, s.isMember g w = true ∧ (s.desc w).inRun p = true)
    then (s.page p).flipped else s.page p
  group : ∀ g, t.group g = if g ∈ done then groupAfter s g else s.group g
  pending : t.pendingFlip = done.foldl (fun f g =>
    if takesCommit s g && s.issuedInto (s.members g) then some (waitingCommit s g) else f) s.pendingFlip

theorem Judged.desc {s t : State} {done : List (Fin 4)} (h : Judged s done t) (w : Fin 8) : t.desc w = s.desc w := by
  unfold State.desc
  by_cases k : ∀ g ∈ done, s.isMember g w = false
  · rw [h.others w k]
  · simp only [not_forall, Bool.not_eq_false] at k
    obtain ⟨g, hg, hm⟩ := k
    rw [h.member g hg w hm]; exact memberAfter_desc s g w

theorem Judged.enabled {s t : State} {done : List (Fin 4)} (h : Judged s done t) (w : Fin 8) :
    t.enabled w = s.enabled w := by
  unfold State.enabled
  by_cases k : ∀ g ∈ done, s.isMember g w = false
  · rw [h.others w k]
  · simp only [not_forall, Bool.not_eq_false] at k
    obtain ⟨g, hg, hm⟩ := k
    rw [h.member g hg w hm, memberAfter_enable]

theorem isMember_congr {s t : State} (h : ∀ w, t.desc w = s.desc w) (k : ∀ w, t.enabled w = s.enabled w) (g : Fin 4)
    (w : Fin 8) : t.isMember g w = s.isMember g w := by
  unfold State.isMember; rw [h, k]

theorem members_congr {s t : State} (h : ∀ w, t.desc w = s.desc w) (k : ∀ w, t.enabled w = s.enabled w) (g : Fin 4) :
    t.members g = s.members g := by
  unfold State.members
  congr 1
  funext w
  exact isMember_congr h k g w

theorem issuedInto_congr {s t : State} (h : t.pPort = s.pPort) (k : t.cPort = s.cPort) (l : List (Fin 8)) :
    t.issuedInto l = s.issuedInto l := by
  unfold State.issuedInto; rw [h, k]

/-- A judged boundary, the records aside. -/
theorem Judged.record {s t : State} {done : List (Fin 4)} (h : Judged s done t) (e : Event) :
    Judged s done (t.record e) where
  only := h.only.trans (commitOnly_record _ _)
  member g hg w hw := (window_congr (record_windows t e) w).trans (h.member g hg w hw)
  others w hw := (window_congr (record_windows t e) w).trans (h.others w hw)
  page p := (page_congr (record_pages t e) p).trans (h.page p)
  group g := (group_congr (record_groups t e) g).trans (h.group g)
  pending := (record_pendingFlip t e).trans h.pending

/-- A group whose outcome takes no commit, its own state aside. -/
theorem Judged.pass {s t : State} {done : List (Fin 4)} (h : Judged s done t) (g : Fin 4) (hg : g ∉ done)
    (hn : takesCommit s g = false) : Judged s (done ++ [g]) (t.setGroup g (groupAfter s g)) := by
  have hf : s.groupOutcome g ≠ .force := by
    intro k; rw [takesCommit, k] at hn; cases hn
  have hx : flipsNow s g = false := by rw [flipsNow, hn]; rfl
  have same : ∀ w, s.isMember g w = true → ∀ k ∈ done, s.isMember k w = false := by
    intro w hw k hk
    by_contra hc
    rw [Bool.not_eq_false] at hc
    exact hg (isMember_unique hc hw ▸ hk)
  refine ⟨h.only.trans (commitOnly_setGroup _ _ _), ?_, ?_, ?_, ?_, ?_⟩
  · intro k hk w hw
    show t.window w = _
    rcases List.mem_append.1 hk with hk | hk
    · exact h.member k hk w hw
    · obtain rfl := List.mem_singleton.1 hk
      rw [h.others w (same w hw)]
      simp [memberAfter, hf, hx]
  · exact fun w hw => h.others w fun k hk => hw k (List.mem_append_left _ hk)
  · intro p
    show t.page p = _
    rw [h.page p]
    simp only [List.mem_append, List.mem_singleton, or_and_right, exists_or, exists_eq_left, hx, Bool.false_eq_true,
      false_and, or_false]
  · intro k
    rw [group_setGroup]
    by_cases e : k = g
    · subst e; simp
    · simp [e, h.group k]
  · rw [List.foldl_append]
    simpa [hn] using h.pending


/-- A member of group `g` before its flip: revoked where the commit is forced (R90). -/
def memberBefore (s : State) (g : Fin 4) (w : Fin 8) : Window :=
  if s.groupOutcome g = .force ∧ (s.window w).bracket = .isOpen then { s.window w with bracket := .revoked }
  else s.window w

theorem memberAfter_eq (s : State) (g : Fin 4) (w : Fin 8) :
    memberAfter s g w = if flipsNow s g then flippedWindow s (memberBefore s g w) else memberBefore s g w := rfl

/-- A group whose outcome takes its commit, from the state with its brackets revoked. -/
theorem Judged.take {s u : State} {done : List (Fin 4)} {g : Fin 4} (hg : g ∉ done) (ht : takesCommit s g = true)
    (only : CommitOnly s u) (mine : ∀ w, s.isMember g w = true → u.window w = memberBefore s g w)
    (member : ∀ k ∈ done, ∀ w, s.isMember k w = true → u.window w = memberAfter s k w)
    (others : ∀ w, s.isMember g w = false → (∀ k ∈ done, s.isMember k w = false) → u.window w = s.window w)
    (page : ∀ p, u.page p =
      if (s.page p).state = .dirty ∧
        (∃ g ∈ done, flipsNow s g = true ∧ ∃ w, s.isMember g w = true ∧ (s.desc w).inRun p = true)
      then (s.page p).flipped else s.page p)
    (group : ∀ k, u.group k = if k ∈ done then groupAfter s k else s.group k)
    (pending : u.pendingFlip = done.foldl (fun f g =>
      if takesCommit s g && s.issuedInto (s.members g) then some (waitingCommit s g) else f) s.pendingFlip) :
    Judged s (done ++ [g]) (u.takeCommit g (if s.groupOutcome g = .force then .forced else .boundary)) := by
  have before_desc : ∀ w, (memberBefore s g w).desc = s.desc w := by
    intro w; unfold memberBefore State.desc; split <;> rfl
  have before_enable : ∀ w, (memberBefore s g w).enable = (s.window w).enable := by
    intro w; unfold memberBefore; split <;> rfl
  have before_commit : ∀ w, (memberBefore s g w).commit = (s.window w).commit := by
    intro w; unfold memberBefore; split <;> rfl
  have cases_of : ∀ w, u.desc w = s.desc w ∧ u.enabled w = s.enabled w := by
    intro w
    by_cases hm : s.isMember g w = true
    · unfold State.desc State.enabled; rw [mine w hm, before_enable]; exact ⟨before_desc w, rfl⟩
    · rw [Bool.not_eq_true] at hm
      by_cases k : ∀ g ∈ done, s.isMember g w = false
      · unfold State.desc State.enabled; rw [others w hm k]; exact ⟨rfl, rfl⟩
      · simp only [not_forall, Bool.not_eq_false] at k
        obtain ⟨k, hk, hw⟩ := k
        unfold State.desc State.enabled; rw [member k hk w hw, memberAfter_enable]; exact ⟨memberAfter_desc s k w, rfl⟩
  have hdesc := fun w => (cases_of w).1
  have hen := fun w => (cases_of w).2
  have hmem := isMember_congr hdesc hen
  have hmems := members_congr hdesc hen
  have hiss : ∀ l, u.issuedInto l = s.issuedInto l := issuedInto_congr only.pPort only.cPort
  have hready := takesCommit_ready ht
  have harm : ∀ w, u.isMember g w = true → (u.window w).commit = .armed := by
    intro w hw
    rw [hmem] at hw
    rw [mine w hw, before_commit]
    exact groupReady_armed hready w hw
  have same : ∀ w, s.isMember g w = true → ∀ k ∈ done, s.isMember k w = false := by
    intro w hw k hk
    by_contra hc
    rw [Bool.not_eq_false] at hc
    exact hg (isMember_unique hc hw ▸ hk)
  have hgroup : ∀ (k : Fin 4), (if k = g then ({ u.group g with state := .idle, count := 0#4 } : Group) else u.group k) =
      if k ∈ done ++ [g] then groupAfter s k else s.group k := by
    intro k
    by_cases e : k = g
    · subst e
      have : groupAfter s k = { s.group k with state := .idle, count := 0#4 } := by
        unfold takesCommit at ht
        unfold groupAfter
        cases ho : s.groupOutcome k <;> simp [ho] at ht <;> rfl
      simp [this, group k, hg]
    · simp [e, group k]
  have hpend : ∀ f, done.foldl (fun f g =>
      if takesCommit s g && s.issuedInto (s.members g) then some (waitingCommit s g) else f) s.pendingFlip = f →
      (done ++ [g]).foldl (fun f g =>
        if takesCommit s g && s.issuedInto (s.members g) then some (waitingCommit s g) else f) s.pendingFlip =
        if s.issuedInto (s.members g) then some (waitingCommit s g) else f := by
    rintro f rfl
    rw [List.foldl_append]
    simp [ht]
  rw [takeCommit_eq u g _ harm, hmems, hiss]
  split
  · next hi =>
    have hx : flipsNow s g = false := by simp [flipsNow, hi]
    refine ⟨only.trans (by constructor <;> rfl), ?_, ?_, ?_, ?_, ?_⟩
    · intro k hk w hw
      show u.window w = _
      rcases List.mem_append.1 hk with hk | hk
      · exact member k hk w hw
      · obtain rfl := List.mem_singleton.1 hk
        rw [mine w hw, memberAfter_eq, hx]; rfl
    · intro w hw
      exact others w (hw g (List.mem_append_right _ (List.mem_singleton.2 rfl)))
        fun k hk => hw k (List.mem_append_left _ hk)
    · intro p
      show u.page p = _
      rw [page p]
      simp only [List.mem_append, List.mem_singleton, or_and_right, exists_or, exists_eq_left, hx, Bool.false_eq_true,
        false_and, or_false]
    · intro k
      show (u.setGroup g _).group k = _
      rw [group_setGroup]; exact hgroup k
    · rw [hpend _ pending.symm, if_pos hi]; rfl
  · next hi =>
    rw [Bool.not_eq_true] at hi
    have hx : flipsNow s g = true := by simp [flipsNow, hi, ht]
    have idle_timer : (u.groupIdle g).timer = s.timer := only.timer
    have hset : ∀ w, (w ∈ s.members g ∧ (u.groupIdle g).enabled w = true) ↔ s.isMember g w = true := by
      intro w
      rw [mem_members]
      show _ ∧ u.enabled w = true ↔ _
      rw [hen]
      exact ⟨fun h => h.1, fun h => ⟨h, isMember_enabled h⟩⟩
    refine ⟨only.trans ((commitOnly_setGroup _ _ _).trans (commitOnly_flip _ _)), ?_, ?_, ?_, ?_, ?_⟩
    · intro k hk w hw
      rw [flip_window]
      dsimp only
      rw [if_congr (hset w) rfl rfl]
      rcases List.mem_append.1 hk with hk | hk
      · have hn : s.isMember g w = false := by
          by_contra hc
          rw [Bool.not_eq_false] at hc
          exact hg (isMember_unique hw hc ▸ hk)
        rw [hn]
        exact member k hk w hw
      · obtain rfl := List.mem_singleton.1 hk
        rw [if_pos hw, memberAfter_eq, hx, if_pos rfl, ← mine w hw]
        unfold flippedWindow
        rw [idle_timer]; rfl
    · intro w hw
      have hn := hw g (List.mem_append_right _ (List.mem_singleton.2 rfl))
      rw [flip_window]
      dsimp only
      rw [if_congr (hset w) rfl rfl, hn]
      exact others w hn fun k hk => hw k (List.mem_append_left _ hk)
    · intro p
      have hrun : (∃ w ∈ s.members g, (u.groupIdle g).enabled w = true ∧ ((u.groupIdle g).desc w).inRun p = true) ↔
          ∃ w, s.isMember g w = true ∧ (s.desc w).inRun p = true := by
        constructor
        · rintro ⟨w, h1, h2, h3⟩
          exact ⟨w, (hset w).1 ⟨h1, h2⟩, hdesc w ▸ h3⟩
        · rintro ⟨w, h1, h2⟩
          obtain ⟨h3, h4⟩ := (hset w).2 h1
          refine ⟨w, h3, h4, ?_⟩
          show (u.desc w).inRun p = true
          rw [hdesc]; exact h2
      rw [flip_page]
      dsimp only
      rw [show (u.groupIdle g).page p = u.page p from rfl, page p]
      simp only [hrun, List.mem_append, List.mem_singleton, or_and_right, exists_or, exists_eq_left, hx, true_and]
      by_cases hd : (s.page p).state = .dirty
      · by_cases h1 : ∃ g ∈ done, flipsNow s g = true ∧ ∃ w, s.isMember g w = true ∧ (s.desc w).inRun p = true
        · simp [hd, h1, PageEntry.flipped]
        · simp [hd, h1]
      · simp [hd]
    · intro k
      rw [group_congr (flip_groups _ _)]
      show (u.setGroup g _).group k = _
      rw [group_setGroup]; exact hgroup k
    · rw [flip_pendingFlip, hpend _ pending.symm, hi]; rfl

theorem foldl_revoke_eq (ws : List (Fin 8)) (s : State) :
    (ws.foldl State.revoke s) = { s with windows := (ws.foldl State.revoke s).windows } := by
  induction ws generalizing s with
  | nil => rfl
  | cons w l ih => rw [List.foldl_cons, ih]; rfl

theorem foldl_revoke_window (ws : List (Fin 8)) (s : State) (v : Fin 8) :
    (ws.foldl State.revoke s).window v = if v ∈ ws then { s.window v with bracket := .revoked } else s.window v := by
  induction ws generalizing s with
  | nil => simp
  | cons w l ih =>
    rw [List.foldl_cons, ih]
    unfold State.revoke
    rw [window_setWindow]
    by_cases h : v = w
    · subst h; by_cases hl : v ∈ l <;> simp [hl]
    · by_cases hl : v ∈ l <;> simp [hl, h]

theorem mem_openMembers (s : State) (g : Fin 4) (w : Fin 8) :
    w ∈ s.openMembers g ↔ s.isMember g w = true ∧ (s.window w).bracket = .isOpen := by
  simp [State.openMembers, mem_members]

theorem setGroup_self (s : State) (g : Fin 4) : s.setGroup g (s.group g) = s := by
  have : s.groups.set g.val (s.group g) = s.groups := by simp [State.group]
  unfold State.setGroup; rw [this]

/-- R88 to R91: one group judged at a boundary. -/
theorem Judged.step {s t : State} {done : List (Fin 4)} (h : Judged s done t) (g : Fin 4) (hg : g ∉ done) :
    Judged s (done ++ [g]) (t.applyOutcome g (s.groupOutcome g)) := by
  have hgr : t.group g = s.group g := by rw [h.group g, if_neg hg]
  have same : ∀ w, s.isMember g w = true → ∀ k ∈ done, s.isMember k w = false := by
    intro w hw k hk
    by_contra hc
    rw [Bool.not_eq_false] at hc
    exact hg (isMember_unique hc hw ▸ hk)
  have hw : ∀ w, s.isMember g w = true → t.window w = s.window w := fun w k => h.others w (same w k)
  cases ho : s.groupOutcome g with
  | nothing =>
    have k := h.pass g hg (by simp [takesCommit, ho])
    have e : groupAfter s g = t.group g := by simp [groupAfter, ho, hgr]
    rw [e, setGroup_self] at k
    exact k
  | endDeferral =>
    have k := h.pass g hg (by simp [takesCommit, ho])
    have e : groupAfter s g = { t.group g with state := .idle, count := 0#4 } := by simp [groupAfter, ho, hgr]
    rw [e] at k
    exact k
  | skip =>
    have k := (h.pass g hg (by simp [takesCommit, ho])).record
      { kind := .freezeSkip, group := some g, count := (t.group g).count.setWidth 8 }
    have e : groupAfter s g = t.group g := by simp [groupAfter, ho, hgr]
    rw [e, setGroup_self] at k
    exact k
  | defer =>
    have k := (h.pass g hg (by simp [takesCommit, ho])).record
      { kind := .commitDeferred, group := some g, count := ((t.group g).count + 1#4).setWidth 8 }
    have e : groupAfter s g = { t.group g with state := .deferred, count := (t.group g).count + 1#4 } := by
      simp [groupAfter, ho, hgr]
    rw [e] at k
    exact k
  | commit =>
    have k := Judged.take hg (by simp [takesCommit, ho]) h.only
      (fun w m => by rw [hw w m]; simp [memberBefore, ho]) h.member (fun w _ m => h.others w m) h.page h.group h.pending
    rw [ho] at k
    exact k
  | force =>
    let u := (((t.openMembers g).foldl State.revoke t).record
      { kind := .commitForced, group := some g, detail := memberBitmap (t.openMembers g),
        count := (t.group g).count.setWidth 8 })
    have hmem : ∀ w, t.isMember g w = s.isMember g w := isMember_congr h.desc h.enabled g
    have hwin : ∀ w, u.window w =
        if w ∈ t.openMembers g then { t.window w with bracket := .revoked } else t.window w := fun w =>
      (window_congr (record_windows _ _) w).trans (foldl_revoke_window _ t w)
    have hrev := foldl_revoke_eq (t.openMembers g) t
    have k := Judged.take (u := u) hg (by simp [takesCommit, ho])
      (h.only.trans ((commitOnly_foldl _ (fun _ _ => commitOnly_setWindow _ _ _) _ t).trans (commitOnly_record _ _)))
      (fun w m => by
        rw [hwin w, hw w m, if_congr (mem_openMembers t g w) rfl rfl, hmem, hw w m]
        simp [memberBefore, ho, m])
      (fun k hk w m => by
        have : s.isMember g w = false := by
          by_contra hc
          rw [Bool.not_eq_false] at hc
          exact hg (isMember_unique m hc ▸ hk)
        rw [hwin w, if_neg (by rw [mem_openMembers, hmem, this]; simp)]
        exact h.member k hk w m)
      (fun w m n => by
        rw [hwin w, if_neg (by rw [mem_openMembers, hmem, m]; simp)]
        exact h.others w n)
      (fun p => ((page_congr (record_pages _ _) p).trans (page_congr (by rw [hrev]) p)).trans (h.page p))
      (fun k => ((group_congr (record_groups _ _) k).trans (group_congr (by rw [hrev]) k)).trans (h.group k))
      (((record_pendingFlip _ _).trans (by rw [hrev])).trans h.pending)
    rw [ho] at k
    exact k

/-- R88: the four groups judged. -/
theorem judged_all (s : State) :
    Judged s allGroups (allGroups.foldl (fun t g => t.applyOutcome g (s.groupOutcome g)) s) := by
  have start : Judged s [] s :=
    ⟨CommitOnly.refl s, by simp, by simp, by simp, by simp, rfl⟩
  have h0 := start.step 0 (by decide)
  have h1 := h0.step 1 (by decide)
  have h2 := h1.step 2 (by decide)
  exact h2.step 3 (by decide)

theorem mem_allGroups (g : Fin 4) : g ∈ allGroups := by revert g; decide

/-- R88, R92: a member of group `g` after a boundary. -/
theorem judgeGroups_member (s : State) (g : Fin 4) (w : Fin 8) (h : s.isMember g w = true) :
    s.judgeGroups.window w = (memberAfter s g w).promoted := by
  unfold State.judgeGroups
  rw [window_mapWindows, (judged_all s).member g (mem_allGroups g) w h]

/-- R92: a window that is a member of no group after a boundary. -/
theorem judgeGroups_other (s : State) (w : Fin 8) (h : ∀ g, s.isMember g w = false) :
    s.judgeGroups.window w = (s.window w).promoted := by
  unfold State.judgeGroups
  rw [window_mapWindows, (judged_all s).others w fun g _ => h g]

theorem judgeGroups_page (s : State) (p : Fin 512) :
    s.judgeGroups.page p =
      if (s.page p).state = .dirty ∧
        (∃ g, flipsNow s g = true ∧ ∃ w, s.isMember g w = true ∧ (s.desc w).inRun p = true)
      then (s.page p).flipped else s.page p := by
  have h := (judged_all s).page p
  simp only [mem_allGroups, true_and] at h
  exact h

theorem judgeGroups_group (s : State) (g : Fin 4) : s.judgeGroups.group g = groupAfter s g := by
  have h := (judged_all s).group g
  rw [if_pos (mem_allGroups g)] at h
  exact h

theorem judgeGroups_pendingFlip (s : State) :
    s.judgeGroups.pendingFlip = allGroups.foldl (fun f g =>
      if takesCommit s g && s.issuedInto (s.members g) then some (waitingCommit s g) else f) s.pendingFlip :=
  (judged_all s).pending

end Sys2Proof.Laws
end

