-- ==== Sys2Proof/Laws/Registers.lean ====
section
/-! SUPPORT. Registers: the register numbers, the bytes of multi-byte values and the transactions of the management
port. -/

namespace Sys2Proof.Laws

theorem length_bytesOf16 (n : BitVec 16) : (bytesOf16 n).length = 2 := rfl

theorem length_bytesOf32 (v : Word) : (bytesOf32 v).length = 4 := rfl

theorem length_writeBytes (n : BitVec 16) (v : Word) : (writeBytes n v).length = 7 := rfl

/-- The bytes of a register number spell it. -/
theorem append_bytesOf16 (n : BitVec 16) : n.extractLsb' 8 8 ++ n.extractLsb' 0 8 = n := by
  apply BitVec.eq_of_getLsbD_eq
  intro i h
  simp only [BitVec.getLsbD_append, BitVec.getLsbD_extractLsb']
  by_cases hi : i < 8
  · simp [hi]
  · simp [hi, show i - 8 < 8 by omega, show 8 + (i - 8) = i by omega]

/-- The bytes of a word spell it. -/
theorem append_bytesOf32 (v : Word) :
    v.extractLsb' 24 8 ++ v.extractLsb' 16 8 ++ v.extractLsb' 8 8 ++ v.extractLsb' 0 8 = v := by
  apply BitVec.eq_of_getLsbD_eq
  intro i h
  simp only [BitVec.getLsbD_append, BitVec.getLsbD_extractLsb']
  by_cases h1 : i < 8
  · simp [h1]
  · by_cases h2 : i - 8 < 8
    · simp [h1, h2, show 8 + (i - 8) = i by omega]
    · by_cases h3 : i - 8 - 8 < 8
      · simp [h1, h2, h3, show 16 + (i - 8 - 8) = i by omega]
      · simp [h1, h2, h3, show i - 8 - 8 - 8 < 8 by omega, show 24 + (i - 8 - 8 - 8) = i by omega]

/-- The bytes of a WRITE_REG make the write of its register. -/
theorem transactionOf_writeBytes (n : BitVec 16) (v : Word) : transactionOf (writeBytes n v) = writeCommand n v := by
  simp only [writeBytes, bytesOf16, bytesOf32, List.cons_append, List.nil_append, transactionOf, append_bytesOf16,
    append_bytesOf32]
  rfl

/-- A write command is no cut-short transaction. -/
theorem writeCommand_ne_cutShort (n : BitVec 16) (v : Word) (bs : List Byte) :
    writeCommand n v ≠ .transactionCutShort bs := by
  unfold writeCommand
  split <;> exact fun h => nomatch h

/-- An action is no cut-short transaction. -/
theorem actionCommand_ne_cutShort (code arg : Byte) (bs : List Byte) :
    actionCommand code arg ≠ .transactionCutShort bs := by
  unfold actionCommand
  repeat' split
  all_goals exact fun h => nomatch h

/-- A list that is no list of six or more, with one element before it, has 6 or fewer. -/
theorem cons_length_of_short (x : Byte) (l : List Byte)
    (h : ∀ a c d e f g r, l = a :: c :: d :: e :: f :: g :: r → False) : (x :: l).length ≤ 6 := by
  match l with
  | [] => simp
  | [_] => simp
  | [_, _] => simp
  | [_, _, _] => simp
  | [_, _, _, _] => simp
  | [_, _, _, _, _] => simp
  | a :: c :: d :: e :: f :: g :: r => exact (h a c d e f g r rfl).elim

/-- R169: bytes that do not reach an execution point are 6 or fewer. -/
theorem cutShort_length {bs : List Byte} (h : cutShort bs = true) : bs.length ≤ 6 := by
  unfold cutShort at h
  split at h
  next _ r hr =>
    unfold transactionOf at hr
    split at hr
    · simp
    · repeat' split at hr
      all_goals first
        | exact absurd hr (writeCommand_ne_cutShort _ _ _)
        | exact absurd hr (actionCommand_ne_cutShort _ _ _)
        | cases hr
      all_goals
        rename_i hx
        refine cons_length_of_short _ _ (fun a c d e f g l hl => ?_)
        first
          | exact hx _ _ _ _ _ _ _ hl
          | exact hx _ _ _ hl
          | exact hx _ _ hl
  next => cases h

end Sys2Proof.Laws
end

