-- ==== Sys2Proof/Laws/PerInstr.lean ====
section
/-! SUPPORT. PerInstr: the law of the family TransactionLength, one lemma per command: the longest transaction of the
management port, WRITE_REG's, has 7 bytes up to its execution point (R169). -/

namespace Sys2Proof.Laws.TransactionLength

/-- R169: a well-formed command that is a transaction of the management port takes at most 7 bytes to its execution
point, and fewer where it is cut short. -/
def Statement (i : Instr) : Prop :=
  i.wellFormed = true → ∀ bs, transactionBytes i = some bs → bs.length ≤ 7

theorem accessAccepted (x : Port) (a : Access) : Statement (.accessAccepted x a) := by
  intro _ bs h; cases h

theorem grant : Statement .grant := by
  intro _ bs h; cases h

theorem memoryResponse (r : BusResp) (d : List Word) : Statement (.memoryResponse r d) := by
  intro _ bs h; cases h

theorem tick : Statement .tick := by
  intro _ bs h; cases h

theorem periodEnd : Statement .periodEnd := by
  intro _ bs h; cases h

theorem synthesizedBoundary : Statement .synthesizedBoundary := by
  intro _ bs h; cases h

theorem fsyncEdge : Statement .fsyncEdge := by
  intro _ bs h; cases h

theorem holdTimeout : Statement .holdTimeout := by
  intro _ bs h; cases h

theorem fstbPulseEnd : Statement .fstbPulseEnd := by
  intro _ bs h; cases h

theorem frzRise : Statement .frzRise := by
  intro _ bs h; cases h

theorem frzFall : Statement .frzFall := by
  intro _ bs h; cases h

theorem hardReset : Statement .hardReset := by
  intro _ bs h; cases h

theorem readReg (n : BitVec 16) : Statement (.readReg n) := by
  intro _ bs h; cases h; exact Nat.le_of_ble_eq_true rfl

theorem writeReg (n : BitVec 16) (v : Word) : Statement (.writeReg n v) := by
  intro _ bs h; cases h; exact Nat.le_of_ble_eq_true rfl

theorem descriptorWrite (w k : Fin 8) (v : Word) : Statement (.descriptorWrite w k v) := by
  intro _ bs h; cases h; exact Nat.le_of_ble_eq_true rfl

theorem devstatWrite (v : Word) : Statement (.devstatWrite v) := by
  intro _ bs h; cases h; exact Nat.le_of_ble_eq_true rfl

theorem devctlWrite (v : Word) : Statement (.devctlWrite v) := by
  intro _ bs h; cases h; exact Nat.le_of_ble_eq_true rfl

theorem evmaskWrite (v : Word) : Statement (.evmaskWrite v) := by
  intro _ bs h; cases h; exact Nat.le_of_ble_eq_true rfl

theorem fmodeWrite (v : Word) : Statement (.fmodeWrite v) := by
  intro _ bs h; cases h; exact Nat.le_of_ble_eq_true rfl

theorem fpreWrite (v : Word) : Statement (.fpreWrite v) := by
  intro _ bs h; cases h; exact Nat.le_of_ble_eq_true rfl

theorem fperWrite (v : Word) : Statement (.fperWrite v) := by
  intro _ bs h; cases h; exact Nat.le_of_ble_eq_true rfl

theorem fcutWrite (v : Word) : Statement (.fcutWrite v) := by
  intro _ bs h; cases h; exact Nat.le_of_ble_eq_true rfl

theorem fminWrite (v : Word) : Statement (.fminWrite v) := by
  intro _ bs h; cases h; exact Nat.le_of_ble_eq_true rfl

theorem fndivWrite (v : Word) : Statement (.fndivWrite v) := by
  intro _ bs h; cases h; exact Nat.le_of_ble_eq_true rfl

theorem deflimWrite (g : Fin 4) (v : Word) : Statement (.deflimWrite g v) := by
  intro _ bs h; cases h; exact Nat.le_of_ble_eq_true rfl

theorem popEvent : Statement .popEvent := by
  intro _ bs h; cases h; exact Nat.le_of_ble_eq_true rfl

theorem badCommand (code : Byte) : Statement (.badCommand code) := by
  intro _ bs h; cases h; exact Nat.le_of_ble_eq_true rfl

theorem unknownAction (code arg : Byte) : Statement (.unknownAction code arg) := by
  intro _ bs h; cases h; exact Nat.le_of_ble_eq_true rfl

theorem transactionCutShort (received : List Byte) : Statement (.transactionCutShort received) := by
  intro h bs hb; cases hb; exact Nat.le_succ_of_le (cutShort_length h)

theorem enable (arg : Byte) : Statement (.enable arg) := by
  intro _ bs h; cases h; exact Nat.le_of_ble_eq_true rfl

theorem disable (arg : Byte) : Statement (.disable arg) := by
  intro _ bs h; cases h; exact Nat.le_of_ble_eq_true rfl

theorem disarm (arg : Byte) : Statement (.disarm arg) := by
  intro _ bs h; cases h; exact Nat.le_of_ble_eq_true rfl

theorem resync (arg : Byte) : Statement (.resync arg) := by
  intro _ bs h; cases h; exact Nat.le_of_ble_eq_true rfl

theorem boundary (arg : Byte) : Statement (.boundary arg) := by
  intro _ bs h; cases h; exact Nat.le_of_ble_eq_true rfl

theorem freeze (arg : Byte) : Statement (.freeze arg) := by
  intro _ bs h; cases h; exact Nat.le_of_ble_eq_true rfl

theorem release (arg : Byte) : Statement (.release arg) := by
  intro _ bs h; cases h; exact Nat.le_of_ble_eq_true rfl

theorem engineReset (arg : Byte) : Statement (.engineReset arg) := by
  intro _ bs h; cases h; exact Nat.le_of_ble_eq_true rfl

theorem fsyncFall : Statement .fsyncFall := by
  intro _ bs h; cases h

theorem mcsnRisingEdge : Statement .mcsnRisingEdge := by
  intro _ bs h; cases h

end Sys2Proof.Laws.TransactionLength
end

