-- ==== Sys2Proof/Laws/Timer.lean ====
section
/-! SUPPORT. Laws of the Frame Timer and of the filtered inputs: what a boundary, a tick and a BCLK period leave as it
was. -/

namespace Sys2Proof.Laws

open Sys2Proof Sys2Proof.Machine

/-! ## The board's levels -/

/-- The board's levels change the pins, the management port, the queue of levels, the queue of commands and the
free-value counter alone. -/
theorem drive_eq (s : State) : s.drive = { s with
    board := s.drive.board, fsync := s.drive.fsync, frz := s.drive.frz, mgmt := s.drive.mgmt,
    pending := s.drive.pending, freeCount := s.drive.freeCount } := by
  unfold State.drive
  split
  · rfl
  · rw [samplePort_eq]

@[simp] theorem drive_windows (s : State) : s.drive.windows = s.windows := by rw [drive_eq]
@[simp] theorem drive_pages (s : State) : s.drive.pages = s.pages := by rw [drive_eq]
@[simp] theorem drive_timer (s : State) : s.drive.timer = s.timer := by rw [drive_eq]
@[simp] theorem drive_freeze (s : State) : s.drive.freeze = s.freeze := by rw [drive_eq]
@[simp] theorem drive_events (s : State) : s.drive.events = s.events := by rw [drive_eq]
@[simp] theorem drive_streak (s : State) : s.drive.streak = s.streak := by rw [drive_eq]
@[simp] theorem drive_pointer (s : State) : s.drive.pointer = s.pointer := by rw [drive_eq]
@[simp] theorem drive_freed (s : State) : s.drive.freed = s.freed := by rw [drive_eq]
@[simp] theorem drive_decision (s : State) : s.drive.decision = s.decision := by rw [drive_eq]; rfl

/-- The accepted levels and the run counts are the filters' own. -/
theorem drive_accepted (s : State) :
    s.drive.fsync.accepted = s.fsync.accepted ∧ s.drive.frz.accepted = s.frz.accepted ∧
      s.drive.fsync.run = s.fsync.run ∧ s.drive.frz.run = s.frz.run := by
  unfold State.drive
  split
  · exact ⟨rfl, rfl, rfl, rfl⟩
  · rw [samplePort_eq]; exact ⟨rfl, rfl, rfl, rfl⟩

/-! ## What the timer leaves as it was -/

/-- The two states agree in the filters, the Freeze Unit, the arbiter's own state and the queue of commands. -/
structure InputsSame (s t : State) : Prop where
  fsync : t.fsync = s.fsync
  frz : t.frz = s.frz
  freeze : t.freeze = s.freeze
  streak : t.streak = s.streak
  pointer : t.pointer = s.pointer
  freed : t.freed = s.freed
  board : t.board = s.board
  pending : t.pending = s.pending

theorem InputsSame.refl (s : State) : InputsSame s s := ⟨rfl, rfl, rfl, rfl, rfl, rfl, rfl, rfl⟩

theorem inputsSame_boundaryWith (s : State) (sync : SyncState) (mark : Option EventKind) :
    InputsSame s (s.boundaryWith sync mark) := by
  unfold State.boundaryWith State.recordFrame
  constructor <;> cases mark <;> dsimp only <;> split <;> simp

theorem inputsSame_synthesized (s : State) : InputsSame s s.synthesized := by
  unfold State.synthesized; split <;> exact inputsSame_boundaryWith _ _ _

theorem inputsSame_tickOnce (s : State) : InputsSame s s.tickOnce := by
  unfold State.tickOnce
  split
  · exact InputsSame.refl s
  · split
    · exact inputsSame_boundaryWith _ _ _
    · constructor <;> rfl
  · split
    · exact inputsSame_synthesized s
    · constructor <;> rfl

theorem inputsSame_prescale (s : State) : InputsSame s s.prescale := by
  unfold State.prescale
  split
  · exact InputsSame.refl s
  · split
    · exact inputsSame_tickOnce s
    · constructor <;> rfl
  · split
    · exact inputsSame_tickOnce s
    · constructor <;> rfl

theorem inputsSame_timerEdge (s : State) : InputsSame s s.timerEdge := by
  unfold State.timerEdge
  split
  · exact InputsSame.refl s
  · exact InputsSame.refl s
  · split
    · constructor <;> simp
    · split <;> exact inputsSame_boundaryWith _ _ _

/-- R77: the FSYNC filter takes a level without touching the FRZ filter or the Freeze Unit. -/
theorem inputsSame_acceptFsync (s : State) (level : Bool) :
    InputsSame { s with fsync := { pin := level, accepted := level, run := 0 } } (s.acceptFsync level) := by
  unfold State.acceptFsync
  dsimp only
  split
  · exact inputsSame_timerEdge _
  · exact InputsSame.refl _

/-- R145, R147: the FRZ filter takes a level, and a change of it is all that reaches the Freeze Unit. -/
theorem acceptFrz_inputs (s : State) (level : Bool) :
    InputsSame { s with
      frz := { pin := level, accepted := level, run := 0 }
      freeze := if level = s.frz.accepted then s.freeze
                else if level then { s.freeze with level := true, line := true, latch := true }
                else { s.freeze with level := false } } (s.acceptFrz level) := by
  unfold State.acceptFrz State.lineRise State.lineFall
  dsimp only
  by_cases h : level = s.frz.accepted
  · simp only [h, beq_self_eq_true, if_true]; exact InputsSame.refl _
  · simp only [beq_iff_eq, h, if_false]
    cases level
    · exact InputsSame.refl _
    · simp only [if_true]
      split
      · exact InputsSame.refl _
      · constructor <;> simp

end Sys2Proof.Laws
end

