-- ==== Sys2Proof/Tests/Slice0.lean ====
section
/-! SUPPORT. Slice0: checks of the model: the WellFormed smoke tests (an ill-formed term for each check), one-step
tests on small states, and for each obligation with hypotheses a state that meets them, clause by clause. -/

namespace Sys2Proof.Tests

open Sys2Proof Sys2Proof.Machine Sys2Proof.Laws

set_option Elab.async false

/-! ## Small states -/

/-- The state a command answers. -/
def after (c : Instr) (s : State) : State :=
  match exec c s with
  | .next t => t
  | .fault _ => s
  | .refused _ => s

/-- A usable descriptor: two pages of 64 bytes, Bank A the view, Bank B at 0x20000, group 0. -/
def d0 (policy : BitVec 2) (guard : Bool) : Descriptor :=
  { viewBase := 0x10000#32, bankABase := 0x10000#32, bankBBase := 0x20000#32, pageSize := 64#10, pageFirst := 0#9,
    pageCount := 2#10, group := 0#2, policy := policy, guard := guard, cma := 0x100#32, lma := 0x200#32 }

/-- An ENABLED window. -/
def win (policy : BitVec 2) (commit : CommitState) (bracket : Bracket) : Window :=
  { Window.reset with desc := d0 policy false, enable := .enabled, commit := commit, bracket := bracket }

/-- A page entry in Bank A. -/
def entry (st : PageState) (attempts : BitVec 2) : PageEntry := { state := st, bank := .a, attempts := attempts }

/-- Window 0 and its page 0. -/
def one (x : Window) (e : PageEntry) : State := (State.reset.setWindow 0 x).setPage 0 e

/-- A single word at an address. -/
def word (addr : BitVec 32) (write : Bool) : Access :=
  { addr := addr, write := write, size := 2#2, blen := 0#2, wdata := if write then [7#32] else [] }

def rd : Access := word 0x10004#32 false
def wr : Access := word 0x10004#32 true

/-- Window 0 OPEN with a page in a state. -/
def page (st : PageState) : State := one (win 0#2 .isOpen .closed) (entry st 0#2)

/-- The window's page of view class. -/
def viewRes (bank : Bank) : Resolution := { cls := .view 0 0 bank, addr := 0x10004#32 }

/-- A port handler's phase. -/
def inPhase (s : State) (x : Port) (ph : Phase) : State := s.setPhase x ph

def marker (m : Marker) (addr : BitVec 32) : Resolution := { cls := .marker 0 m, addr := addr }

/-- The Copy Engine in a phase with page 0, window 0's page COPYING. -/
def copying (enable : EnableState) (ph : EnginePhase) (pair : Nat) (attempts : BitVec 2) : State :=
  { one { win 0#2 .isOpen .closed with enable := enable } (entry .copying attempts) with
    engine := { Engine.reset with phase := ph, page := some 0, pair := pair, issued := true }
    mport := .busy .copy rd }

/-! ## WellFormed: an ill-formed term for each check -/

theorem test_wf_write_without_data : (Instr.accessAccepted .p { wr with wdata := [] }).wellFormed = false := by decide
theorem test_wf_read_with_data : (Instr.accessAccepted .c { rd with wdata := [1#32] }).wellFormed = false := by decide
theorem test_wf_access : (Instr.accessAccepted .p wr).wellFormed = true := by decide
theorem test_wf_response_of_nine_beats :
    (Instr.memoryResponse .okay (List.replicate 9 0#32)).wellFormed = false := by decide
theorem test_wf_writeReg_of_a_writable_register : (Instr.writeReg 0x010#16 1#32).wellFormed = false := by decide
theorem test_wf_writeReg_of_a_descriptor : (Instr.writeReg 0x2DC#16 1#32).wellFormed = false := by decide
theorem test_wf_writeReg_of_a_status : (Instr.writeReg 0x2E0#16 1#32).wellFormed = true := by decide
theorem test_wf_badCommand_of_a_command : (Instr.badCommand 0x33#8).wellFormed = false := by decide
theorem test_wf_unknownAction_of_an_action : (Instr.unknownAction 0x0F#8 0#8).wellFormed = false := by decide
theorem test_wf_cutShort_at_its_execution_point :
    (Instr.transactionCutShort [0x31#8, 0#8, 4#8]).wellFormed = false := by decide
theorem test_wf_cutShort_of_a_pop : (Instr.transactionCutShort [0x33#8]).wellFormed = true := by decide
theorem test_wf_cutShort : (Instr.transactionCutShort [0x31#8, 0#8]).wellFormed = true := by decide

/-! ## The management port -/

theorem test_bytes_of_a_write :
    transactionOf [0x32#8, 0x01#8, 0x44#8, 0x12#8, 0x34#8, 0x56#8, 0x78#8] = .descriptorWrite 1 1 0x12345678#32 := by
  decide
theorem test_bytes_of_an_action : transactionOf [0x34#8, 0x04#8, 0x05#8] = .resync 5#8 := by decide
theorem test_read_deviceId :
    (after (.readReg 0#16) State.reset).mgmt.out = [0x01#8, 0x73#8, 0x10#8, 0x00#8, 0x01#8] := by decide +kernel
theorem test_read_odd_number :
    (after (.readReg 2#16) State.reset).mgmt.out = [0x06#8, 0#8, 0#8, 0#8, 0#8] := by decide +kernel
theorem test_write_readonly : (after (.writeReg 0x028#16 1#32) State.reset).mgmt.out = [0x06#8] := by decide +kernel
theorem test_devctl_holdmax_zero : (after (.devctlWrite 1#32) State.reset).mgmt.out = [0x03#8] := by decide +kernel
theorem test_descriptor_field_width :
    ((after (.descriptorWrite 0 3 0xFFFFFFFF#32) State.reset).desc 0).pageSize = 0x3FF#10 := by decide +kernel
theorem test_evmask_positions : (after (.evmaskWrite 0xFFFFFFFF#32) State.reset).evmask = 0x00FFFFFE#32 := by
  decide +kernel
theorem test_pop_empty :
    (after .popEvent State.reset).mgmt.out = [0x01#8, 0#8, 0xFF#8, 0xFF#8, 0#8, 0#8, 0#8, 0xFF#8, 0xFF#8, 0#8, 0#8, 0#8,
      0#8, 0#8, 0#8, 0#8, 0#8] := by decide +kernel
theorem test_cut_short_ends_an_answered_transaction :
    (after (.transactionCutShort []) (after .popEvent State.reset)).mgmt = { framing := .ready, out := [], msck := true } := by decide +kernel
theorem test_hard_reset_with_a_transaction_open :
    (after .hardReset { State.reset with mgmt := { framing := .opened, out := [] } }).mgmt.framing = .ignoring := by
  decide +kernel
theorem test_cut_short_after_reset :
    (after (.transactionCutShort [0x31#8])
      { State.reset with mgmt := { framing := .ignoring, out := [] } }).mgmt.framing = .ready := by decide +kernel

/-! ## Windows, ports and copies -/

theorem test_enable_queues_the_run :
    (after (.enable 0#8) (State.reset.setWindow 0 { win 0#2 .isOpen .closed with enable := .disabled })).copyQueue
      = [0, 1] := by decide +kernel
theorem test_enable_bad_descriptor : (after (.enable 0#8) State.reset).mgmt.out = [0x03#8] := by decide +kernel
theorem test_enable_argument_above_seven : (after (.enable 8#8) State.reset).mgmt.out = [0x06#8] := by decide +kernel
theorem test_disable_of_a_page_in_flight :
    ((after (.disable 0#8) (copying .enabled .read 0 1#2)).window 0).enable = .draining := by decide +kernel
theorem test_resync_of_a_broken_page :
    (after (.resync 0#8) (one (win 0#2 .isOpen .closed) (entry .broken 3#2))).copyQueue = [0] := by decide +kernel
theorem test_disarm :
    ((after (.disarm 0#8) (one (win 0#2 .armed .closed) (entry .synced 0#2))).window 0).commit = .isOpen := by
  decide +kernel
theorem test_producer_writes_the_other_bank :
    (after (.accessAccepted .p wr) (page .synced)).pPort.phase =
      .pending wr { cls := .view 0 0 .b, addr := 0x20004#32 } := by decide +kernel
theorem test_consumer_reads_the_current_bank :
    (after (.accessAccepted .c rd) (page .dirty)).cPort.phase =
      .pending rd { cls := .view 0 0 .a, addr := 0x10004#32 } := by decide +kernel
theorem test_misaligned_access :
    (after (.accessAccepted .p (word 2#32 false)) State.reset).pPort.resp =
      some { resp := .error, rdata := [0#32] } := by decide +kernel
theorem test_grant_starts_a_copy :
    (after .grant { page .stale with copyQueue := [0] }).engine.page = some 0 := by decide +kernel
theorem test_third_failure_breaks_the_page :
    (after (.memoryResponse .error []) (copying .enabled .read 0 3#2)).page 0 = entry .broken 3#2 := by decide +kernel
theorem test_end_of_copy :
    (after (.memoryResponse .okay []) (copying .enabled .write 1 2#2)).page 0 = entry .synced 0#2 := by decide +kernel
theorem test_hold_timeout :
    (after .holdTimeout { inPhase (page .synced) .p (.held wr .sealed 0 0) with holdCount := 1 }).pPort.phase = .idle := by
  decide +kernel
theorem test_hold_that_does_not_time_out :
    (after .holdTimeout (inPhase (page .synced) .p (.held wr .sealed 0 0))).pPort.phase = .held wr .sealed 0 0 := by
  decide +kernel

/-! ## Boundaries, groups and freeze -/

theorem test_boundary_commits_an_armed_window :
    ((after (.boundary 0#8) (one (win 0#2 .armed .closed) (entry .dirty 0#2))).page 0) =
      { state := .stale, bank := .b, attempts := 0#2 } := by decide +kernel
theorem test_frozen_boundary_skips :
    ((after (.boundary 0#8)
      { one (win 0#2 .armed .closed) (entry .dirty 0#2) with
        freeze := { latch := true, line := false, command := true, level := false } }).page 0) = entry .dirty 0#2 := by
  decide +kernel
theorem test_open_bracket_defers :
    ((after (.boundary 0#8) (one (win 0#2 .armed .isOpen) (entry .dirty 0#2))).group 0) =
      { state := .deferred, count := 1#4, limit := 2#4 } := by decide +kernel
/-- A flip of one group leaves the pending flip of another. -/
theorem test_other_groups_pending_flip_stays :
    (State.flip { State.reset with pendingFlip := some { group := 1, set := [1], origin := .boundary } }
      { group := 0, set := [0], origin := .boundary }).pendingFlip =
        some { group := 1, set := [1], origin := .boundary } := by decide +kernel
theorem test_freeze_and_release :
    (after (.release 0#8) { after (.freeze 0#8) State.reset with mgmt := State.reset.mgmt }).freeze.latch = false := by
  decide +kernel
theorem test_release_refused_with_the_line_high :
    (after (.release 0#8) (after .frzRise State.reset)).mgmt.out = [0x05#8] := by decide +kernel
theorem test_period_end :
    (after .tick { State.reset with
      timer := { Timer.reset with mode := .internal, counter := 65534#24 } }).timer.frame = 1#16 := by decide +kernel
theorem test_engine_reset_turns_the_timer_off :
    (after (.engineReset 0#8) { State.reset with timer := { Timer.reset with mode := .external } }).timer.mode = .off := by
  decide +kernel

/-- A boundary and a commit in the queue: FRAME, then COMMIT with its count. -/
theorem test_records_of_a_boundary :
    ((after (.boundary 0#8) (one (win 0#2 .armed .closed) (entry .dirty 0#2))).events.map fun e => (e.kind, e.count)) =
      [(.frame, 0#8), (.commit, 1#8)] := by decide +kernel

/-! ## The hypotheses of the obligations are met -/

/-- The timer in a mode with figures that reach each boundary of its clauses. -/
def timed (mode : TimerMode) (counter fmin : BitVec 24) (prescale : Nat) (fpre : BitVec 7) (sync : SyncState) : State :=
  { State.reset with timer := { Timer.reset with
      mode := mode, counter := counter, fmin := fmin, prescale := prescale, fpre := fpre, sync := sync } }

/-- Filters in a run. -/
def filtered (fsyncRun frzRun : Nat) (level : Bool) : State :=
  { State.reset with fsync := { pin := level, accepted := false, run := fsyncRun }
                     frz := { pin := level, accepted := false, run := frzRun } }

/-- Levels the board drives next. -/
def driven (s : State) (ls : List BoardLevels) : State := { s with board := ls }

/-- A sample of the serial lines. -/
def lines (mcsn msck msi : Bool) : BoardLevels := { fsync := false, frz := false, mcsn := mcsn, msck := msck, msi := msi }

/-- The port in a framing, with bytes received, the count of bits of the present byte, and a level of MSCK. -/
def framed (f : PortFraming) (bytes : List Byte) (bit : Nat) (msck : Bool) : State :=
  { State.reset with mgmt := { framing := f, out := [], received := bytes, bit := bit, msck := msck } }

/-- The state a step answers. -/
def stepped (s : State) : State :=
  match step s with
  | .next t => t
  | .fault _ => s
  | .refused _ => s

theorem witness_IdleStepIsOneBclkPeriod :
    (let s := inPhase State.reset .c (.pending rd (viewRes .a))
     s.pending = [] ∧ s.decision ≠ none) ∧
    State.reset.board = [] ∧ (driven State.reset [lines false true true]).board = lines false true true :: [] ∧
    (let s := driven (filtered 2 2 true) [{ lines true false false with fsync := true }]
     s.pending = [] ∧ s.decision = none ∧ s.drive.fsync.due = false ∧ s.drive.frz.due = false ∧ s.timer.mode = .off) ∧
    (let s := timed .internal 0#24 0#24 2 4#7 .seeking
     s.pending = [] ∧ s.decision = none ∧ s.drive.fsync.due = false ∧ s.drive.frz.due = false ∧ s.timer.mode ≠ .off ∧
      s.timer.prescale + 1 < s.timer.fpre.toNat) ∧
    (let s := timed .external 0#24 0#24 3 4#7 .seeking
     s.pending = [] ∧ s.decision = none ∧ s.drive.fsync.due = false ∧ s.drive.frz.due = false ∧ s.timer.mode ≠ .off ∧
      s.timer.fpre.toNat ≤ s.timer.prescale + 1) ∧
    (∀ mode ∈ [TimerMode.off, .internal], let s := { timed mode 0#24 0#24 0 1#7 .seeking with freed := true }
     s.pending = [] ∧ s.decision = none ∧ s.drive.fsync.due = false ∧ s.drive.frz.due = false) := by decide +kernel

/-- A producer access that appears first on a FREE M-port is granted at its appearance, before a consumer access that
follows it. -/
theorem test_first_request_is_granted :
    let s := after (.accessAccepted .c rd) (after (.accessAccepted .p wr) (page .synced))
    s.mport = .busy .producer { wr with addr := 0x20004#32 } ∧ s.decision = none ∧
      (after .grant s).mport = s.mport := by decide +kernel

/-- R129: a failed copy ends, and DISABLE of its window comes before the decision at that response, or after the grant. -/
theorem test_disable_at_the_end_of_a_copy :
    let s := after (.memoryResponse .error []) { copying .enabled .read 0 1#2 with copyQueue := [1] }
    let first := after (.disable 0#8) s
    let granted := after (.disable 0#8) (after .grant s)
    s.freed = true ∧ s.Settled ∧ s.decision = some .copy ∧ s.copyQueue = [0, 1] ∧
      (first.window 0).enable = .disabled ∧ (first.page 0).state = .unused ∧ first.copyQueue = [] ∧
      first.decision = none ∧ (granted.window 0).enable = .draining ∧ granted.engine.page = some 0 := by decide +kernel

/-- A write outside every window. -/
def far : Access := word 0x40000#32 true

/-- R141: an access that appears before the decision at a freeing takes part in it, and with nothing left to come the
decision is taken. -/
theorem test_decision_at_a_freeing :
    let s := after (.memoryResponse .okay []) { copying .enabled .write 0 1#2 with pPort :=
      { phase := .pending far { cls := .plain, addr := far.addr }, resp := none } }
    let t := after (.accessAccepted .c rd) s
    s.freed = true ∧ (stepped s).mport = .busy .producer far ∧ (stepped s).freed = false ∧
      (after .grant t).mport = .busy .consumer rd := by decide +kernel

/-- R142: an engine reset on a FREE M-port leaves the decision among the port requests to be taken at once. -/
theorem test_decision_at_an_engine_reset :
    let s := after (.memoryResponse .okay []) { copying .enabled .write 0 1#2 with pPort :=
      { phase := .pending far { cls := .plain, addr := far.addr }, resp := none } }
    (after (.accessAccepted .c rd) (after (.engineReset 0#8) s)).mport = .busy .producer far := by decide +kernel

/-- A filter with run 2 takes its third sample in the period in which the other accepts, in every order of its events. -/
theorem test_third_sample_is_not_accepted :
    let s := filtered 3 2 true
    ∀ k, (((clockOrder k).filter s.clockHas).foldl State.clockEvent
      { s with fsync := s.fsync.sample, frz := s.frz.sample }).frz = { pin := true, accepted := false, run := 3 } := by
  decide +kernel

/-- A pulse that ends before its fourth sample leaves nothing. -/
theorem test_short_pulse :
    (stepped (driven (filtered 3 3 true) [lines true false false])).frz = Filter.reset := by decide +kernel

/-- The eighth bit of the status byte of a POP_EVENT is its execution point: the pop is the next event, the status byte
was OK before it, and the falling edge that follows puts the first bit of the record on MSO. -/
theorem test_pop_at_the_status_byte :
    (framed .opened [] 0 false).msoByte = some 0x00#8 ∧ (framed .opened [0x33#8] 0 false).msoByte = some 0x01#8 ∧
    (stepped (driven (framed .opened [0x33#8] 7 true) [lines false false false])).msoLevel = some true ∧
    (stepped (driven (framed .opened [0x33#8] 7 false) [lines false true false])).pending = [.popEvent] ∧
    (after .popEvent (framed .opened [0x33#8, 0#8] 0 true)).msoLevel = some true ∧
    (stepped (driven (after .popEvent (framed .opened [0x33#8, 0#8] 0 true)) [lines false false false])).msoLevel =
      some false := by decide +kernel

/-- The status byte of a read is on MSO from the falling edge after its execution point, its most significant bit
first. -/
theorem test_status_byte_after_a_read :
    (after (.readReg 0#16) State.reset).msoLevel = some false ∧ (after (.readReg 0#16) State.reset).msoByte = some 0x01#8 ∧
    (let m : ManagementPort := { (after (.readReg 0#16) State.reset).mgmt with bit := 7 }
     m.fall.mso = true ∧ (m.rise true).index = 1 ∧ (m.rise true).returned = 0x73#8) := by decide +kernel

/-- Eight rising edges make a byte, most significant bit first. -/
theorem test_eight_bits_make_a_byte :
    let m := ([false, false, true, true, false, false, false, true] : List Bool).foldl ManagementPort.rise
      (framed .opened [] 0 false).mgmt
    m.received = [0x31#8] ∧ m.bit = 0 := by decide +kernel

/-- A byte that leaves a transaction short of its execution point is kept; a port with no transaction open ignores MSI;
a rise of MCSn discards the bits of an unfinished byte. -/
theorem test_bits_that_make_no_command :
    (stepped (driven (framed .opened [0x34#8] 7 false) [lines false true true])).mgmt.received = [0x34#8, 0x01#8] ∧
    (stepped (driven (framed .opened [0x34#8] 7 false) [lines false true true])).pending = [] ∧
    (stepped (driven (framed .ignoring [] 0 false) [lines false true true])).mgmt.bit = 0 ∧
    (stepped (driven (framed .opened [0x34#8] 7 false) [lines true false false])).mgmt = State.reset.mgmt ∧
    (stepped (driven State.reset [lines false false false])).mgmt.framing = .opened := by decide +kernel

/-- MCSn rises on the edge of the execution point: the transaction is cut short, or executed and then ended. -/
theorem test_rise_at_the_execution_point :
    let s := framed .opened [0x33#8] 7 false
    (s.selectThenClock (lines true true false)).pending = [] ∧
      (s.clockThenSelect (lines true true false)).pending = [.popEvent, .mcsnRisingEdge] ∧
      (after .mcsnRisingEdge (after .popEvent (s.clockThenSelect (lines true true false)))).mgmt.framing = .ready := by
  decide +kernel

/-- Both filters due, and each due while the other has run 2. A filter due is an event of the period. -/
theorem witness_FilterAcceptsAtFourthSample :
    (filtered 0 0 false).frz.pin = (filtered 0 0 false).frz.accepted ∧
    ((filtered 2 2 true).frz.pin ≠ (filtered 2 2 true).frz.accepted ∧ (filtered 2 2 true).frz.run < 3) ∧
    ((filtered 3 3 true).frz.pin ≠ (filtered 3 3 true).frz.accepted ∧ (filtered 3 3 true).frz.run = 3) ∧
    (let s := filtered 3 3 true
     s.pending = [] ∧ s.decision = none ∧ s.drive.frz.due = true ∧ s.drive.fsync.due = true) ∧
    (let s := filtered 3 2 true
     s.pending = [] ∧ s.decision = none ∧ s.drive.frz.due = false ∧ s.drive.fsync.due = true) ∧
    (let s := driven (filtered 2 3 true) [{ lines true false false with frz := true }]
     s.pending = [] ∧ s.decision = none ∧ s.drive.frz.due = true ∧ s.drive.fsync.due = false) ∧
    (let s := { filtered 3 3 true with freed := true }
     s.pending = [] ∧ s.decision = none ∧ s.drive.frz.due = true) := by decide +kernel

theorem witness_TickAdvancesOrEndsThePeriod :
    State.reset.timer.mode = .off ∧ State.reset.Settled ∧
    (∀ mode ∈ [TimerMode.internal, .external], (timed mode 65534#24 0#24 0 1#7 .seeking).Settled) ∧
    (let s := timed .internal 65533#24 0#24 0 1#7 .seeking
     s.Settled ∧ s.timer.mode ≠ .off ∧ s.timer.counter.toNat + 1 < s.timer.fper.toNat) ∧
    (let s := timed .internal 65534#24 0#24 0 1#7 .seeking
     s.timer.mode = .internal ∧ s.timer.fper.toNat ≤ s.timer.counter.toNat + 1) ∧
    (∀ sync ∈ [SyncState.seeking, .locked, .lost], let s := timed .external 65534#24 0#24 0 1#7 sync
     s.Settled ∧ s.timer.mode = .external ∧ s.timer.fper.toNat ≤ s.timer.counter.toNat + 1 ∧
      s.timer.sync = sync) := by decide +kernel

theorem witness_FsyncEdgeByModeAndCounter :
    (let s := timed .internal 9#24 16#24 0 1#7 .seeking
     s.Settled ∧ s.fsync.accepted = false ∧ s.timer.mode ≠ .external) ∧
    (let s := timed .external 15#24 16#24 0 1#7 .seeking
     s.Settled ∧ s.fsync.accepted = false ∧ s.timer.mode = .external ∧ s.timer.counter.toNat < s.timer.fmin.toNat) ∧
    (∀ sync ∈ [SyncState.seeking, .locked, .lost], let s := timed .external 16#24 16#24 0 1#7 sync
     s.Settled ∧ s.fsync.accepted = false ∧ s.timer.mode = .external ∧ s.timer.fmin.toNat ≤ s.timer.counter.toNat ∧
      s.timer.sync = sync) ∧
    (∀ pin ∈ [false, true], let s := { State.reset with fsync := { pin := pin, accepted := true, run := 3 } }
     s.Settled ∧ s.fsync.accepted = true) := by decide +kernel

/-- A frame number that is a multiple of FNDIV, and one that is not, at both ends of the marks. -/
theorem witness_BoundaryAtTheFrameTimer : State.reset.portReady ∧ State.reset.Settled ∧
    (let t := { Timer.reset with frame := 7#16, fndiv := 8#4 }
     (t.frame + 1#16).toNat % t.fndiv.toNat = 0 ∧ (t.frame + 2#16).toNat % t.fndiv.toNat ≠ 0) := ⟨.inl rfl, rfl, by decide⟩

theorem witness_ModeWriteRestartsTheFrame : State.reset.portReady ∧ State.reset.Settled ∧
    (0#32).extractLsb' 0 2 = 0#2 ∧ (1#32).extractLsb' 0 2 = 1#2 ∧ (0xFFFFFFFE#32).extractLsb' 0 2 = 2#2 ∧
    (3#32).extractLsb' 0 2 = 3#2 := ⟨.inl rfl, rfl, by decide⟩

/-- FPER at 16, at 16777215, at FCUT + 1 and at FMIN + 1; FCUT at FPER - 1 and FPER; FMIN the same. -/
theorem witness_TimerLimitWrites :
    (timed .off 0#24 15#24 0 1#7 .seeking).portReady ∧ (timed .off 0#24 15#24 0 1#7 .seeking).Settled ∧ (timed .internal 0#24 16#24 0 1#7 .seeking).portReady ∧ (timed .internal 0#24 16#24 0 1#7 .seeking).Settled ∧
    ((timed .off 0#24 15#24 0 1#7 .seeking).timer.fperOk 16#32 = true ∧
      (timed .internal 0#24 16#24 0 1#7 .seeking).timer.fperOk 16#32 = false ∧
      (timed .internal 0#24 16#24 0 1#7 .seeking).timer.fperOk 17#32 = true ∧
      Timer.reset.fperOk 15#32 = false ∧ Timer.reset.fperOk 16777215#32 = true ∧ Timer.reset.fperOk 16777216#32 = false ∧
      ({ Timer.reset with fcut := 99#24 }).fperOk 99#32 = false ∧
      ({ Timer.reset with fcut := 99#24 }).fperOk 100#32 = true ∧
      Timer.reset.fcutOk 0#32 = true ∧ Timer.reset.fcutOk 65534#32 = true ∧ Timer.reset.fcutOk 65535#32 = false ∧
      (65534#32).toNat < Timer.reset.fper.toNat ∧ ¬(65535#32).toNat < Timer.reset.fper.toNat ∧
      ¬(2#32 = 1#32 ∨ 2#32 = 4#32 ∨ 2#32 = 16#32 ∨ 2#32 = 64#32) ∧
      ¬(3#32 = 1#32 ∨ 3#32 = 2#32 ∨ 3#32 = 4#32 ∨ 3#32 = 8#32)) := ⟨.inl rfl, rfl, .inl rfl, rfl, by decide +kernel⟩

theorem witness_EngineResetKeepsConfiguration :
    let s : State :=
      { inPhase (inPhase (page .stale) .p (.held wr .demand 0 0)) .c (.pending rd (viewRes .a)) with
        mport := .busy .copy rd }
    let t := inPhase State.reset .c (.issued rd (viewRes .a))
    s.portReady ∧ s.Settled ∧ t.portReady ∧ t.Settled ∧ s.phaseOf .p = .held wr .demand 0 0 ∧ s.phaseOf .c = .pending rd (viewRes .a) ∧
      t.phaseOf .p = .idle ∧ t.phaseOf .c = .issued rd (viewRes .a) := ⟨.inl rfl, rfl, .inl rfl, rfl, rfl, rfl, rfl, rfl⟩

/-- One transaction of each length and each writable group of registers, at the ends of their ranges. -/
theorem witness_TransactionBytesRoundTrip :
    ∀ c ∈ [Instr.readReg 0xFFFF#16, .writeReg 0xBFC#16 1#32, .descriptorWrite 7 7 1#32, .deflimWrite 3 1#32,
        .devstatWrite 1#32, .fndivWrite 8#32, .popEvent, .badCommand 0x30#8, .unknownAction 0x05#8 0xFF#8,
        .transactionCutShort [], .transactionCutShort [0x32#8, 0#8, 0#8, 0#8, 0#8, 0#8], .engineReset 0xFF#8],
      c.wellFormed = true ∧ (transactionBytes c).isSome = true := by decide +kernel

theorem witness_ReadRegReturnsTheValue :
    registerNamed 0#16 = some .deviceId ∧ registerNamed 0x030#16 = some .devqueue ∧ registerNamed 0x034#16 = none ∧
    registerNamed 0x04C#16 = some (.groupControl 3) ∧ registerNamed 0x05C#16 = some (.groupStatus 3) ∧
    registerNamed 0x060#16 = none ∧ registerNamed 0x100#16 = some (.descriptor 0 0) ∧
    registerNamed 0x2FC#16 = some (.windowStatus 7 7) ∧ registerNamed 0x300#16 = none ∧
    registerNamed 0x400#16 = some (.pageView 0) ∧ registerNamed 0xBFC#16 = some (.pageView 511) ∧
    registerNamed 0xC00#16 = none ∧ registerNamed 0x001#16 = none := by decide +kernel

/-- The queues at their full lengths, and a usable descriptor in service. -/
theorem witness_StatusRegisterFields :
    (let s := { State.reset with
      events := List.replicate 32 ({ kind := .frame } : Event)
      copyQueue := List.replicate 512 (0 : Fin 512)
      engine := { Engine.reset with page := some 511 } }
     s.events.length ≤ 32 ∧ s.copyQueue.length ≤ 512 ∧ s.engine.page = some 511 ∧ State.reset.engine.page = none) ∧
    (∀ w, (page .dirty).inService w → ((page .dirty).desc w).usable = true) ∧ (page .dirty).inService 0 :=
  ⟨by decide +kernel, by unfold State.inService; decide +kernel, by unfold State.inService; decide +kernel⟩

theorem witness_UnknownRequestsAreBadCommand : State.reset.portReady ∧ State.reset.Settled ∧
    noWriteOfItsOwn 0#16 = true ∧ noWriteOfItsOwn 0x034#16 = true ∧ noWriteOfItsOwn 0x2FC#16 = true ∧
    0x30#8 ∉ commandBytes ∧ 0x35#8 ∉ commandBytes ∧ 0x00#8 ∉ actionCodes ∧ 0x05#8 ∉ actionCodes ∧
    8 ≤ (8#8 : Byte).toNat ∧ 8 ≤ (0xFF#8 : Byte).toNat := ⟨.inl rfl, rfl, by decide +kernel⟩

theorem witness_DescriptorWriteOnlyWhileDisabled :
    State.reset.portReady ∧ State.reset.Settled ∧ (page .synced).portReady ∧ (page .synced).Settled ∧ (State.reset.window 7).enable = .disabled ∧
      ((page .synced).window 0).enable ≠ .disabled := ⟨.inl rfl, rfl, .inl rfl, rfl, by decide +kernel⟩

theorem witness_DeviceRegisterWrites : State.reset.portReady ∧ State.reset.Settled ∧
    (0x00000100#32).extractLsb' 8 3 ≠ 0#3 ∧ (0x00000700#32).extractLsb' 8 3 ≠ 0#3 ∧ (1#32).extractLsb' 8 3 = 0#3 :=
  ⟨.inl rfl, rfl, by decide⟩

/-- A ready group with an OPEN bracket whose count reaches a limit just written. -/
theorem witness_DeflimWriteBoundsTheCount :
    let s := (one (win 0#2 .armed .isOpen) (entry .dirty 0#2)).setGroup 0 { state := .deferred, count := 1#4, limit := 2#4 }
    let t := after (.deflimWrite 0 1#32) s
    s.portReady ∧ s.Settled ∧ s.GroupsOk ∧ (15#32).toNat ≤ 15 ∧ 15 < (16#32).toNat ∧ (1#32).toNat ≤ (s.group 0).count.toNat ∧
      exec (.deflimWrite 0 1#32) s = .next t ∧ t.groupReady 0 = true ∧ t.freeze.latch = false ∧ t.openMembers 0 ≠ [] :=
  ⟨.inl rfl, rfl, by unfold State.GroupsOk; decide +kernel, by decide, by decide, by decide +kernel, rfl, by decide +kernel, rfl,
    by decide +kernel⟩

theorem witness_RecordsArriveAndArePopped :
    let e : Event := { kind := .frame }
    State.reset.portReady ∧ State.reset.Settled ∧ State.reset.events = [] ∧ ({ State.reset with events := [e] }).portReady ∧ ({ State.reset with events := [e] }).Settled ∧
      ({ State.reset with events := [e] }).events = e :: [] ∧
      ({ State.reset with evmask := 0#32 }).evmask.getLsbD e.kind.code.toNat = false ∧
      State.reset.evmask.getLsbD e.kind.code.toNat = true ∧ (List.replicate 31 e).length < 32 ∧
      32 ≤ (List.replicate 32 e).length := ⟨.inl rfl, rfl, rfl, .inl rfl, rfl, rfl, by decide +kernel⟩

theorem witness_TransactionsAreFramed :
    (transactionBytes .popEvent).isSome = true ∧ (∀ bs, Instr.popEvent ≠ .transactionCutShort bs) ∧
      ¬(framed .answered [] 0 false).portReady ∧ ¬(framed .ignoring [] 0 false).portReady ∧
      (∀ f ∈ [PortFraming.ready, .opened, .answered, .ignoring], (framed f [] 0 false).Settled) ∧
      (framed .opened [0x33#8] 0 false).mgmt.received = [0x33#8] ∧ (framed .opened [0x32#8] 0 false).mgmt.received ≠ [0x33#8] ∧
      (let m := (after .popEvent State.reset).mgmt
       m.framing = .answered ∧ m.index < m.out.length ∧ m.out.length ≤ 17 ∧ { m with index := 17 }.out.length ≤ 17) :=
  ⟨rfl, fun _ h => (by cases h), fun h => (by rcases h with h | h <;> cases h),
    fun h => (by rcases h with h | h <;> cases h), by decide +kernel⟩

/-- A sample in which MSCK keeps its level, falls, or rises, with MCSn held and with MCSn changed; in an open transaction
short of the last bit of a byte, at it, and at it where it is the execution point; and after the execution point. -/
theorem witness_SamplesOfTheLines :
    (∀ b, (lines false b true).msck = (framed .opened [] 3 b).mgmt.msck) ∧ (framed .opened [] 3 true).mgmt.msck = true ∧
    (lines false false true).msck = false ∧ (lines false true true).msck = true ∧
    (∀ f ∈ [PortFraming.ready, .opened, .answered, .ignoring], ∀ bit ∈ [6, 7],
      let m := (framed f [0x34#8, 0x0F#8] bit false).mgmt
      m.framing = f ∧ m.msck = false ∧ m.bit = bit ∧
        (lines (f == .ready) true true).mcsn = (f == .ready) ∧ (lines (f != .ready) true true).mcsn ≠ (f == .ready)) ∧
    transactionOf ([0x34#8, 0x0F#8] ++ [0x01#8]) = .engineReset 0x01#8 ∧
    transactionOf ([0x34#8] ++ [0x0F#8]) = .transactionCutShort [0x34#8, 0x0F#8] := by decide +kernel

theorem witness_FormTestAtAcceptance :
    State.reset.Settled ∧ (∀ x, State.reset.phaseOf x = .idle) ∧ formOk { rd with addr := 0x1F#32, size := 0#2 } = true ∧
    formOk { rd with addr := 0x1E#32, size := 1#2 } = true ∧ formOk { rd with addr := 0x1F#32, size := 1#2 } = false ∧
    formOk { rd with addr := 0x1C#32 } = true ∧ formOk { rd with addr := 0x1E#32 } = false ∧
    formOk { rd with size := 3#2 } = false ∧ formOk { rd with addr := 0x18#32, blen := 1#2 } = true ∧
    formOk { rd with addr := 0x1C#32, blen := 1#2 } = false ∧ formOk { rd with addr := 0x10#32, blen := 2#2 } = true ∧
    formOk { rd with addr := 0x18#32, blen := 2#2 } = false ∧ formOk { rd with addr := 0x20#32, blen := 3#2 } = true ∧
    formOk { rd with addr := 0x30#32, blen := 3#2 } = false ∧
    (inPhase State.reset .p (.held wr .demand 0 0)).Settled ∧
    (inPhase State.reset .p (.held wr .demand 0 0)).phaseOf .p ≠ .idle :=
  ⟨rfl, fun x => by cases x <;> rfl, by decide +kernel⟩

/-- The two ends of the view. -/
theorem witness_EndsOfAView :
    (page .synced).place .p (word 0x10000#32 true) = .view 0 ∧ (page .synced).place .c (word 0x1007C#32 false) = .view 0 ∧
      ((page .synced).desc 0).pageAt 0x1003F#32 = 0 ∧ ((page .synced).desc 0).pageAt 0x10040#32 = 1 := by decide +kernel

theorem witness_ConsumerAccessOfAView :
    (page .dirty).Settled ∧ (page .dirty).cPort.phase = .idle ∧ formOk rd = true ∧ formOk wr = true ∧ (page .dirty).place .c rd = .view 0 ∧
      (page .dirty).place .c wr = .view 0 ∧ rd.write = false ∧ wr.write = true ∧
      (∀ a ∈ [rd, wr], let s := inPhase (page .dirty) .c (.pending a (viewRes .b))
        s.cPort.phase = .pending a (viewRes .b) ∧ s.place .c a = .view 0 ∧ s.pPort.phase = .idle) := by decide +kernel

theorem witness_ProducerReadOfAView :
    (page .dirty).Settled ∧ (page .dirty).pPort.phase = .idle ∧ formOk rd = true ∧ rd.write = false ∧ (page .dirty).place .p rd = .view 0 ∧
      (page .broken).place .p rd = .view 0 ∧ ((page .broken).page 0).state ≠ .dirty ∧
      (inPhase (page .dirty) .p (.pending rd (viewRes .a))).pPort.phase = .pending rd (viewRes .a) ∧
      (inPhase (page .dirty) .p (.pending rd (viewRes .a))).place .p rd = .view 0 := by decide +kernel

theorem waits_held {s : State} {x : Port} {a : Access} (why : HoldReason) (w : Fin 8) (p : Fin 512)
    (h : s.phaseOf x = .held a why w p) : s.waits x a := .inr ⟨why, w, p, h⟩

theorem waits_pending {s : State} {x : Port} {a : Access} (r : Resolution) (h : s.phaseOf x = .pending a r) :
    s.waits x a := .inl ⟨r, h⟩

/-- Each state of the page, the handler IDLE; and a write HELD for each reason, the other handler IDLE. -/
theorem witness_ProducerWriteOfAnOpenWindow :
    (∀ st ∈ [PageState.synced, .dirty, .stale, .copying, .broken],
      let s := page st
      s.Settled ∧ s.pPort.phase = .idle ∧ formOk wr = true ∧ wr.write = true ∧ s.place .p wr = .view 0 ∧
        (s.window 0).commit = .isOpen ∧ (s.page ((s.desc 0).pageAt wr.addr)).state = st) ∧
    ∀ why, let s := inPhase (page .synced) .p (.held wr why 0 0)
      s.waits .p wr ∧ s.place .p wr = .view 0 ∧ (s.window 0).commit = .isOpen ∧ s.cPort.phase = .idle :=
  ⟨by decide +kernel, fun why => ⟨waits_held why 0 0 rfl, by cases why <;> decide +kernel,
    by cases why <;> decide +kernel, rfl⟩⟩

/-- Each policy and each sealed state, the handler IDLE; and a write HELD with reason SEALED, and one that was PENDING
when its window was armed. -/
theorem witness_LateWriteByPolicy :
    (∀ policy ∈ [0#2, 1#2, 2#2], ∀ commit ∈ [CommitState.armed, .armedLate],
      let s := one (win policy commit .closed) (entry .dirty 0#2)
      s.Settled ∧ s.pPort.phase = .idle ∧ formOk wr = true ∧ wr.write = true ∧ s.place .p wr = .view 0 ∧
        (s.window 0).commit ≠ .isOpen ∧ (s.desc 0).policy = policy) ∧
    (let s := inPhase (one (win 1#2 .armed .closed) (entry .dirty 0#2)) .p (.held wr .sealed 0 0)
     s.waits .p wr ∧ s.sealedHold = true ∧ s.cPort.phase = .idle) ∧
    (let s := inPhase (one (win 1#2 .armed .closed) (entry .dirty 0#2)) .p (.pending wr (viewRes .b))
     s.waits .p wr ∧ s.sealedHold = false) :=
  ⟨by decide +kernel, ⟨waits_held .sealed 0 0 rfl, rfl, rfl⟩, waits_pending (viewRes .b) rfl, rfl⟩

/-- The bytes beside the view and the ends of Bank B; the three markers; a guarded bank region. -/
theorem witness_UntranslatedAndGuardedAccesses :
    let s := page .synced
    let g := one { win 0#2 .isOpen .closed with desc := d0 0#2 true } (entry .synced 0#2)
    s.Settled ∧ g.Settled ∧ (∀ x ∈ [Port.p, .c], s.phaseOf x = .idle ∧ g.phaseOf x = .idle ∧ s.place x (word 0xFFFC#32 true) = .plain ∧
      s.place x (word 0x10080#32 true) = .plain ∧ s.place x (word 0x20000#32 true) = .bankRegion 0 .b ∧
      s.place x (word 0x2007C#32 false) = .bankRegion 0 .b ∧ g.place x (word 0x2007C#32 false) = .bankRegion 0 .b) ∧
    (s.desc 0).guard = false ∧ (g.desc 0).guard = true ∧ s.place .p (word 0x100#32 true) = .marker 0 .commit ∧
    s.place .c (word 0x200#32 false) = .marker 0 .leaseOpen ∧ s.place .c (word 0x204#32 false) = .marker 0 .leaseClose ∧
    formOk (word 0xFFFC#32 true) = true ∧ formOk (word 0x204#32 false) = true := by decide +kernel

/-- A write held for a page of a window that has left service, at an address now plain; the other handler IDLE. -/
theorem witness_WaitingAccessOutsideEveryWindow :
    let s := inPhase State.reset .p (.held wr .demand 0 0)
    s.waits .p wr ∧ (∀ w, s.place .p wr ≠ .view w) ∧ s.place .p wr = .plain ∧ ∀ y, y ≠ .p → s.phaseOf y = .idle :=
  ⟨waits_held .demand 0 0 rfl, by decide +kernel, by decide +kernel, fun y h => by cases y; exact absurd rfl h; rfl⟩

/-- An access that waits as plain, and is now of a guarded bank region, of an unguarded one, or a marker. -/
theorem witness_WaitingAccessOfABankRegion :
    let r : Resolution := { cls := .plain, addr := 0x20000#32 }
    let a := word 0x20000#32 true
    let s := inPhase (one { win 0#2 .isOpen .closed with desc := d0 0#2 true } (entry .synced 0#2)) .p (.pending a r)
    let t := inPhase (page .synced) .p (.pending a r)
    let m := inPhase (page .synced) .p (.pending (word 0x100#32 true) r)
    s.waits .p a ∧ s.place .p a = .bankRegion 0 .b ∧ (s.desc 0).guard = true ∧ (∀ y, y ≠ .p → s.phaseOf y = .idle) ∧
      t.waits .p a ∧ t.place .p a = .bankRegion 0 .b ∧ (t.desc 0).guard = false ∧ m.waits .p (word 0x100#32 true) ∧
      m.place .p (word 0x100#32 true) = .marker 0 .commit :=
  ⟨waits_pending _ rfl, by decide +kernel, by decide +kernel, fun y h => (by cases y; exact absurd rfl h; rfl),
    waits_pending _ rfl, by decide +kernel, by decide +kernel, waits_pending _ rfl, by decide +kernel⟩

/-- A marker that lies in the view of another window: window 1's commit marker at an address of window 0's view. -/
def markerInAView : State :=
  (page .synced).setWindow 1 { win 0#2 .isOpen .closed with
    desc := { d0 0#2 false with viewBase := 0x30000#32, bankABase := 0x30000#32, bankBBase := 0x40000#32,
                                pageFirst := 2#9, cma := 0x10004#32, lma := 0x10008#32 } }

theorem witness_ClassificationAndResolution :
    (d0 0#2 false).usable = true ∧ (d0 0#2 false).view.has 0x10000 = true ∧ (d0 0#2 false).view.has 0x1007F = true ∧
      (d0 0#2 false).bankABase = (d0 0#2 false).viewBase ∧ markerInAView.enabled 1 = true ∧
      isMarkerOf wr .p (markerInAView.desc 1) .commit ∧ isMarkerOf (word 0x10008#32 false) .c (markerInAView.desc 1) .leaseOpen ∧
      isMarkerOf (word 0x1000C#32 false) .c (markerInAView.desc 1) .leaseClose ∧
      (markerInAView.desc 0).view.has wr.addr.toNat = true ∧ markerInAView.place .p rd = .view 0 := by
  refine ⟨by decide +kernel, by decide +kernel, by decide +kernel, by decide +kernel, by decide +kernel,
    ⟨rfl, rfl, rfl, rfl, by decide +kernel⟩, ⟨rfl, rfl, rfl, rfl, by decide +kernel⟩,
    ⟨rfl, rfl, rfl, rfl, by decide +kernel⟩, by decide +kernel, by decide +kernel⟩

/-- A write held with reason SEALED in window 0 of a group with DEFLIM 2, its hold count at `n`. -/
def sealedHeld (br : Bracket) (n : Nat) : State :=
  { inPhase (one (win 1#2 .armed br) (entry .synced 0#2)) .p (.held wr .sealed 0 0) with holdCount := n }

/-- The same behind a consumer read of the view, with a pending flip or none. -/
def sealedBehindRead (f : Option TakenCommit) : State :=
  { inPhase (sealedHeld .closed 1) .c (.issued rd (viewRes .a)) with mport := .busy .consumer rd, pendingFlip := f }

def commitOfZero : TakenCommit := { group := 0, set := [0], origin := .boundary }

theorem flipWaits_sealedBehindRead (f : Option TakenCommit) : (sealedBehindRead f).FlipWaits 0 :=
  ⟨.c, rd, viewRes .a, 0, 0, .a, rfl, rfl, (by decide +kernel : (sealedHeld .closed 1).isMember 0 0 = true)⟩

/-- A boundary that does not take the commit of the window, the count below HOLDMAX and one that reaches it. -/
theorem witness_HoldCountAndTimeout :
    ∀ n ∈ [0, 1], let s := sealedHeld .isOpen n
      s.pPort.phase = .held wr .sealed 0 0 ∧ s.portReady ∧ s.Settled ∧ s.JudgedOk ∧ s.boundaryTakes 0 = false ∧
        s.groupOutcome 0 = .defer ∧ (n = 0 → s.holdCount + 1 < s.holdMax.toNat) ∧
        (n = 1 → s.holdMax.toNat ≤ s.holdCount + 1) := by
  intro n hn
  rcases List.mem_cons.1 hn with rfl | hn
  · exact ⟨rfl, .inl rfl, rfl, fun x => (by cases x; exact ⟨by decide +kernel, by decide +kernel⟩; trivial), by decide +kernel⟩
  · obtain rfl := List.mem_singleton.1 hn
    exact ⟨rfl, .inl rfl, rfl, fun x => (by cases x; exact ⟨by decide +kernel, by decide +kernel⟩; trivial), by decide +kernel⟩

/-- A boundary that takes the commit and flips it; one that takes it behind a read of the view; one that meets it as the
pending flip. -/
theorem witness_BoundaryThatTakesTheCommit :
    (let s := sealedHeld .closed 1
     s.portReady ∧ s.Settled ∧ s.JudgedOk ∧ s.isMember 0 0 = true ∧ s.groupOutcome 0 = .commit ∧ s.boundaryTakes 0 = true ∧
      s.issuedInto (s.members 0) = false) ∧
    (let s := sealedBehindRead none
     s.portReady ∧ s.Settled ∧ s.JudgedOk ∧ s.isMember 0 0 = true ∧ s.groupOutcome 0 = .commit ∧ s.FlipWaits 0) ∧
    (let s := sealedBehindRead (some commitOfZero)
     s.portReady ∧ s.Settled ∧ s.JudgedOk ∧ s.isMember 0 0 = true ∧ s.pendingFlip = some commitOfZero ∧ 0 ∈ commitOfZero.set) :=
  ⟨⟨.inl rfl, rfl, fun x => (by cases x; exact ⟨by decide +kernel, by decide +kernel⟩; trivial), by decide +kernel⟩,
    ⟨.inl rfl, rfl, fun x => (by cases x; exact ⟨by decide +kernel, by decide +kernel⟩; trivial), by decide +kernel,
      by decide +kernel, flipWaits_sealedBehindRead _⟩,
    ⟨.inl rfl, rfl, fun x => (by cases x; exact ⟨by decide +kernel, by decide +kernel⟩; trivial), by decide +kernel, rfl,
      by decide⟩⟩

theorem witness_RejudgementFrame :
    let s := inPhase { page .stale with copyQueue := [1, 0] } .c (.issued rd (viewRes .a))
    s.phaseOf .p = .idle ∧ s.phaseOf .c = .issued rd (viewRes .a) ∧ 1 ∈ s.copyQueue ∧ (s.page 0).state = .stale := by
  decide +kernel

/-- A write held for a STALE page at the head of the queue. -/
theorem witness_RejudgementOfAJudgedStateIsIdle :
    let s := inPhase { page .stale with copyQueue := [0] } .p (.held wr .demand 0 0)
    s.JudgedOk ∧ s.PortsOk ∧ s.DemandOk ∧ s.copyQueue.Nodup := by
  refine ⟨fun x => by cases x; exact ⟨by decide +kernel, by decide +kernel⟩; trivial, ⟨?_, ?_, ?_, by decide +kernel⟩,
    ?_, by decide +kernel⟩
  · intro x h; cases x <;> rfl
  · intro a why w p h; cases h
  · intro _; rfl
  · intro p h _; cases h; rfl

/-- Requests of the three at once, and each alone, on a FREE M-port. -/
def requests (p c : Bool) (queue : List (Fin 512)) (streak : Nat) (pointer : Pointer) : State :=
  let s : State := { page .stale with copyQueue := queue, streak := streak, pointer := pointer }
  let s := if p then inPhase s .p (.pending rd (viewRes .a)) else s
  if c then inPhase s .c (.pending rd (viewRes .a)) else s

theorem witness_GrantDecisionFollowsTheRanks :
    (∀ r d, Instr.tick ≠ .memoryResponse r d) ∧ Instr.tick ≠ .grant ∧
    (let held (why : HoldReason) : State := inPhase { page .stale with copyQueue := [0] } .p (.held wr why 0 0)
     (held .demand).portRequests .p = false ∧ (held .demand).demandPage = some 0 ∧ (held .sealed).demandPage = none ∧
      (held .demand).decision = some .copy) ∧
    (requests true false [] 0 .copy).portRequests .p = true ∧ (copying .enabled .read 0 1#2).engineRequests = false ∧
    ({ State.reset with engine := { Engine.reset with phase := .write } }).engineRequests = true ∧
    (∀ streak ∈ [7, 8], (requests true true [0] streak .copy).decision =
      some (if streak = 7 then .consumer else .producer)) ∧
    (requests false true [] 8 .copy).decision = some .consumer ∧
    (∀ queue ∈ [[], [0]], (requests true false queue 0 .producer).decision =
      some (if queue.isEmpty then .producer else .copy)) ∧
    (∀ queue ∈ [[], [0]], (requests false false queue 0 .copy).decision =
      if queue.isEmpty then none else some .copy) ∧
    (requests true true [0] 8 .copy).freed = false ∧ ({ State.reset with mport := .busy .copy rd }).mport = .busy .copy rd :=
  ⟨fun _ _ h => (by cases h), by decide +kernel⟩

theorem witness_StreakAndPointerFollowGrants :
    (∀ r d, Instr.tick ≠ .memoryResponse r d) ∧ (∀ arg, Instr.tick ≠ .engineReset arg) ∧
    (∃ t, exec .tick State.reset = .next t) ∧ (∃ t, step State.reset = .next t) ∧
    Instr.tick ≠ .grant ∧ Instr.tick ≠ .hardReset ∧
    (let s := requests true true [0] 8 .copy
     s.pending = [] ∧ s.decision ≠ none ∧ s.freed = false ∧ ({ s with freed := true } : State).freed = true) ∧
    (let s := State.reset
     s.pending = [] ∧ s.decision = none ∧ s.drive.fsync.due = false ∧ s.drive.frz.due = false) :=
  ⟨fun _ _ h => (by cases h), fun _ h => (by cases h), ⟨_, rfl⟩, ⟨_, rfl⟩, by decide +kernel⟩

theorem witness_GrantIssuesAPortAccess :
    (∀ w m, (viewRes .a).cls ≠ .marker w m) ∧ (requests false true [] 0 .copy).decision = some .consumer ∧
      (requests false true [] 0 .copy).cPort.phase = .pending rd (viewRes .a) ∧
      (requests true false [] 0 .copy).decision = some .producer ∧
      (requests true false [] 0 .copy).pPort.phase = .pending rd (viewRes .a) :=
  ⟨fun _ _ h => (by cases h), by decide +kernel⟩

/-- The commit marker of window 0 waits, the window in a commit state, the counter at 9. -/
def arming (commit : CommitState) (fcut : BitVec 24) : State :=
  { inPhase (one (win 0#2 commit .closed) (entry .synced 0#2)) .p
      (.pending (word 0x100#32 true) (marker .commit 0x100#32)) with
    timer := { Timer.reset with mode := .internal, counter := 9#24, fcut := fcut } }

/-- FCUT one above the counter, and at it. -/
theorem witness_CommitMarkerAtItsGrant :
    (arming .isOpen 10#24).decision = some .producer ∧ (arming .armed 9#24).decision = some .producer ∧
    (word 0x100#32 true).wdata = [7#32] ∧ ((arming .isOpen 9#24).window 0).commit = .isOpen ∧
    ((arming .armedLate 9#24).window 0).commit ≠ .isOpen ∧ (arming .isOpen 10#24).timer.late = false ∧
    (arming .isOpen 9#24).timer.late = true := by decide +kernel

theorem witness_LeaseMarkersAtTheirGrant :
    (∀ br ∈ [Bracket.closed, .isOpen, .revoked], ∀ m ∈ [Marker.leaseOpen, .leaseClose],
      let s := inPhase (one (win 0#2 .armed br) (entry .dirty 0#2)) .c (.pending (word 0x200#32 false) (marker m 0x200#32))
      s.decision = some .consumer ∧ (s.window 0).bracket = br ∧ (s.group 0).state = .idle) ∧
    (∀ commit ∈ [CommitState.armed, .isOpen], ∀ latch ∈ [false, true],
      let s := inPhase ((one (win 0#2 commit .isOpen) (entry .dirty 0#2)).setGroup 0
        { state := .deferred, count := 1#4, limit := 2#4 }) .c (.pending (word 0x204#32 false) (marker .leaseClose 0x204#32))
      let j := { s with freeze := { FreezeUnit.reset with latch := latch } }.setWindow 0
        { s.window 0 with bracket := .closed }
      s.decision = some .consumer ∧ (s.group 0).state = .deferred ∧ (j.groupReady 0 = true ↔ commit = .armed) ∧
        j.openMembers 0 = []) := by decide +kernel

theorem witness_CopyBurstsAtTheirGrant :
    (requests false false [0] 0 .copy).decision = some .copy ∧ (requests false false [0] 0 .copy).copyQueue = 0 :: [] ∧
    (∀ ph ∈ [EnginePhase.read, .write],
      let s := { copying .enabled ph 1 1#2 with mport := .free, engine := { Engine.reset with phase := ph, page := some 0, pair := 1 } }
      s.decision = some .copy ∧ s.engine.phase = ph ∧ s.engine.page = some 0) := by decide +kernel

theorem witness_TheTwoLawsAtTheGrant :
    let s := inPhase (page .dirty) .c (.pending rd { cls := .view 0 0 .a, addr := 0x10004#32 })
    let t := inPhase (page .dirty) .p (.pending wr { cls := .view 0 0 .b, addr := 0x20004#32 })
    s.JudgedOk ∧ s.decision = some .consumer ∧ t.JudgedOk ∧ t.decision = some .producer ∧ wr.write = true := by
  refine ⟨fun x => ?_, by decide +kernel, fun x => ?_, by decide +kernel, rfl⟩
  · cases x; trivial; exact ⟨by decide +kernel, by decide +kernel⟩
  · cases x; exact ⟨by decide +kernel, by decide +kernel⟩; trivial

theorem witness_PortAccessEnds :
    let busy (q : Requester) (x : Port) (a : Access) (r : Resolution) : State :=
      { inPhase (page .synced) x (.issued a r) with mport := .busy q { a with addr := r.addr } }
    let f : TakenCommit := { group := 0, set := [0], origin := .boundary }
    State.reset.mport = .free ∧ State.reset.decision = none ∧ (busy .producer .p wr (viewRes .b)).pendingFlip = none ∧
      (busy .producer .p wr (viewRes .b)).phaseOf .p = .issued wr (viewRes .b) ∧
      (busy .producer .p wr (viewRes .b)).mport = .busy .producer wr ∧
      (busy .consumer .c rd (viewRes .a)).phaseOf .c = .issued rd (viewRes .a) ∧
      (busy .consumer .c rd (viewRes .a)).mport = .busy .consumer rd ∧
      (busy .producer .p (word 0x100#32 true) (marker .commit 0x100#32)).pPort.phase =
        .issued (word 0x100#32 true) (marker .commit 0x100#32) ∧
      (busy .consumer .c rd { cls := .plain, addr := 4#32 }).cPort.phase = .issued rd { cls := .plain, addr := 4#32 } ∧
      ({ busy .consumer .c rd (viewRes .a) with pendingFlip := some f }).pendingFlip = some f ∧
      ({ copying .enabled .read 0 1#2 with pendingFlip := some f }).mport = .busy .copy rd := by decide +kernel

theorem witness_CopyMovesOnOkay :
    (copying .enabled .write 0 1#2).mport = .busy .copy rd ∧
    ({ copying .enabled .write 0 1#2 with engine := Engine.reset }).engine.page = none ∧
    (copying .enabled .read 0 1#2).engine.phase = .read ∧
    (let s := copying .enabled .write 0 1#2
     s.engine.page = some 0 ∧ s.engine.phase = .write ∧
      s.engine.pair + 1 < (s.desc (s.owner 0)).pageSize.toNat / 32) := by decide +kernel

theorem witness_CopyEnds :
    (∀ en ∈ [EnableState.enabled, .draining], ∀ attempts ∈ [1#2, 2#2, 3#2],
      let s := copying en .write 1 attempts
      s.mport = .busy .copy rd ∧ s.engine.page = some 0 ∧ s.ownerOf 0 = some 0 ∧ s.engine.phase = .write ∧
        (s.desc 0).pageSize.toNat / 32 ≤ s.engine.pair + 1 ∧ (s.window 0).enable = en ∧ (s.page 0).attempts = attempts) ∧
    (let t := one { win 0#2 .isOpen .closed with readyPending := true } (entry .synced 0#2)
     (t.window 0).readyPending = true ∧ t.pageCount 0 .stale = 0 ∧ t.pageCount 0 .copying = 0) ∧
    (page .stale).pageCount 0 .stale ≠ 0 ∧ (page .copying).pageCount 0 .copying ≠ 0 := by decide +kernel

/-- The six outcomes; the count one below the limit and at it. -/
theorem witness_GroupOutcomeTable :
    let g (commit : CommitState) (br : Bracket) (st : GroupState) (count : BitVec 4) (latch : Bool) : State :=
      { (one (win 0#2 commit br) (entry .dirty 0#2)).setGroup 0 { state := st, count := count, limit := 2#4 } with
        freeze := { FreezeUnit.reset with latch := latch, command := latch } }
    (g .armed .closed .idle 0#4 false).isMember 0 0 = true ∧ (g .armed .closed .idle 0#4 false).isMember 1 0 = false ∧
    (copying .draining .read 0 1#2).isMember 0 0 = false ∧
    (g .isOpen .closed .idle 0#4 false).groupOutcome 0 = .nothing ∧
    (g .isOpen .closed .deferred 1#4 false).groupOutcome 0 = .endDeferral ∧
    (g .armed .closed .idle 0#4 true).groupOutcome 0 = .skip ∧
    (g .armed .revoked .idle 0#4 false).groupOutcome 0 = .commit ∧
    (g .armed .isOpen .deferred 1#4 false).groupOutcome 0 = .defer ∧
    (g .armed .isOpen .deferred 2#4 false).groupOutcome 0 = .force := by decide +kernel

/-- A state in which no M-port access is on its way. -/
theorem arbiterOk_quiet (s : State) (hm : s.mport = .free) (hp : s.pPort.phase = .idle) (hc : s.cPort.phase = .idle)
    (he : s.engine.issued = false) (hs : s.streak ≤ 8) : s.ArbiterOk :=
  ⟨fun b => ⟨(by rw [hm]; intro h; cases h), (by rintro ⟨a, r, h, _⟩; rw [hc] at h; cases h)⟩,
    fun b => ⟨(by rw [hm]; intro h; cases h), (by rintro ⟨a, r, h, _⟩; rw [hp] at h; cases h)⟩,
    (by rw [he]; intro h; cases h), (fun _ => hm), hs⟩

/-- Group 0 forced with an OPEN bracket; committing; a window armed late; a commit behind a read of the view. -/
theorem witness_BoundaryAtTheCommitController :
    (let s := (one (win 0#2 .armed .isOpen) (entry .dirty 0#2)).setGroup 0 { state := .deferred, count := 2#4, limit := 2#4 }
     s.portReady ∧ s.Settled ∧ s.ArbiterOk ∧ s.groupOutcome 0 = .force ∧ s.isMember 0 0 = true ∧ (s.window 0).bracket = .isOpen ∧
      (s.page 0).state = .dirty ∧ (s.desc 0).inRun 0 = true ∧ s.issuedInto (s.members 0) = false) ∧
    (one (win 0#2 .armed .closed) (entry .dirty 0#2)).groupOutcome 0 = .commit ∧
    ((one (win 0#2 .armedLate .isOpen) (entry .dirty 0#2)).window 0).commit = .armedLate ∧
    (let s := sealedBehindRead none
     s.portReady ∧ s.Settled ∧ s.ArbiterOk ∧ s.groupOutcome 0 = .commit ∧ s.FlipWaits 0) := by
  refine ⟨⟨.inl rfl, rfl, arbiterOk_quiet _ rfl rfl rfl rfl (by decide), by decide +kernel⟩, by decide +kernel,
    by decide +kernel, .inl rfl, rfl, ⟨?_, ?_, ?_, (by intro h; cases h), by decide⟩, by decide +kernel, flipWaits_sealedBehindRead _⟩
  · intro k
    refine ⟨fun h => ?_, fun ⟨a, r, h, hk⟩ => ?_⟩
    · cases h; exact ⟨rd, viewRes .a, rfl, rfl⟩
    · cases h; cases hk; rfl
  · exact fun k => ⟨(by intro h; cases h), (by rintro ⟨a, r, h, _⟩; cases h)⟩
  · intro h; cases h

theorem witness_FrozenBoundaryTakesNoCommit :
    let s := { one (win 0#2 .armed .closed) (entry .dirty 0#2) with
      freeze := { FreezeUnit.reset with latch := true, command := true } }
    s.portReady ∧ s.Settled ∧ s.freeze.latch = true ∧ s.groupReady 0 = true ∧ (s.window 0).commit ≠ .isOpen :=
  ⟨.inl rfl, rfl, by decide +kernel⟩

theorem windowsOk_armed : (one (win 0#2 .armed .closed) (entry .dirty 0#2)).WindowsOk := by
  constructor
  · decide +kernel
  · unfold State.inService; decide +kernel
  · unfold State.inService; decide +kernel
  · have h : ∀ w, ((one (win 0#2 .armed .closed) (entry .dirty 0#2)).window w).enable ≠ .draining := by decide +kernel
    exact fun w hw => absurd hw (h w)

/-- A commit with the view of its window read at the M-port, and one without; a set of one window, its first page DIRTY. -/
theorem witness_CommitFlip :
    (let s := one (win 0#2 .armed .closed) (entry .dirty 0#2)
     let t := inPhase s .c (.issued rd (viewRes .a))
     s.issuedInto [0] = false ∧ t.phaseOf .c = .issued rd (viewRes .a) ∧ (viewRes .a).cls = .view 0 0 .a ∧
      0 ∈ ((t.members 0).filter fun w => (t.window w).commit == .armed) ∧ s.enabled 0 = true ∧ s.enabled 1 = false ∧
      (s.desc 0).inRun 0 = true ∧ (s.desc 0).inRun 1 = true ∧ (s.desc 0).inRun 2 = false ∧
      (s.page 0).state = .dirty ∧ (s.page 1).state ≠ .dirty ∧ ([0, 1] : List (Fin 8)).Pairwise (· < ·)) ∧
    (one (win 0#2 .armed .closed) (entry .dirty 0#2)).WindowsOk := ⟨by decide +kernel, windowsOk_armed⟩

/-- Window 0 DISABLED with a usable descriptor. -/
def described : State := State.reset.setWindow 0 { Window.reset with desc := d0 0#2 false }

theorem enableConditions_described : described.EnableConditions 0 := by
  have h : ∀ v, ¬described.inService v := by unfold State.inService; decide +kernel
  have hd : described.desc 0 = d0 0#2 false := by decide +kernel
  constructor <;> first
    | (intro v _ hv; exact absurd hv (h v))
    | (rw [hd]; decide +kernel)
    | skip
  · rw [hd]; rintro ⟨x, h1, h2⟩
    simp [Region.has, Descriptor.bankRegion, Descriptor.bankBase, Descriptor.viewSize, d0] at h1 h2; omega
  · rw [hd]; refine ⟨?_, Or.inl rfl⟩; rintro ⟨x, h1, h2⟩
    simp [Region.has, Descriptor.bankRegion, Descriptor.view, Descriptor.bankBase, Descriptor.viewSize, d0] at h1 h2
    omega
  · rintro v (rfl | hv) m hm r hr
    · rw [hd] at hm hr; rintro ⟨x, h1, h2⟩
      simp [Descriptor.markerWords, Descriptor.bankRegion, Descriptor.view, Descriptor.bankBase, Descriptor.viewSize,
        d0] at hm hr
      rcases hm with rfl | rfl | rfl <;> rcases hr with rfl | rfl | rfl <;> simp [Region.has] at h1 h2 <;> omega
    · exact absurd hv (h v)

theorem witness_EnableTestsTheDescriptor :
    described.portReady ∧ described.Settled ∧ (∀ v, described.inService v → (described.desc v).usable = true) ∧
      (described.window 0).enable = .disabled ∧ described.EnableConditions 0 ∧
      (State.reset.window 0).enable = .disabled ∧ ¬State.reset.EnableConditions 0 ∧
      ((page .synced).window 0).enable ≠ .disabled :=
  ⟨.inl rfl, rfl, by unfold State.inService; decide +kernel, by decide +kernel, enableConditions_described, by decide +kernel,
    fun h => absurd h.pageSize (by decide +kernel), by decide +kernel⟩

theorem witness_EnablePutsTheWindowInService :
    described.portReady ∧ described.Settled ∧ (described.window 0).enable = .disabled ∧ described.enableOk 0 = true :=
  ⟨.inl rfl, rfl, by decide +kernel⟩

theorem witness_DisableByEnableState :
    (page .synced).portReady ∧ (page .synced).Settled ∧ (described.window 0).enable = .disabled ∧
      ((copying .draining .read 0 1#2).window 0).enable = .draining ∧
      ((copying .enabled .read 0 1#2).window 0).enable = .enabled ∧
      (∃ p, (copying .enabled .read 0 1#2).engine.page = some p ∧ ((copying .enabled .read 0 1#2).desc 0).inRun p = true) ∧
      ((page .synced).window 0).enable = .enabled ∧
      ¬∃ p, (page .synced).engine.page = some p ∧ ((page .synced).desc 0).inRun p = true :=
  ⟨.inl rfl, rfl, by decide +kernel, by decide +kernel, by decide +kernel, ⟨0, by decide +kernel⟩, by decide +kernel,
    fun ⟨_, h, _⟩ => (by cases h)⟩

theorem witness_ResyncAndDisarm :
    described.portReady ∧ described.Settled ∧ (described.window 0).enable ≠ .enabled ∧
      (let s := one (win 0#2 .isOpen .closed) (entry .broken 3#2)
       (s.window 0).enable = .enabled ∧ (s.window 0).commit = .isOpen) ∧
      (let s := one (win 0#2 .armedLate .closed) (entry .synced 0#2)
       (s.window 0).commit ≠ .isOpen ∧ (s.group 0).state = .idle ∧
        ((s.setGroup 0 { state := .deferred, count := 1#4, limit := 2#4 }).group 0).state = .deferred) :=
  ⟨.inl rfl, rfl, by decide +kernel⟩

theorem witness_FreezeSetsTheCommandFlag :
    State.reset.portReady ∧ State.reset.Settled ∧ State.reset.freeze.command = false ∧
      ({ State.reset with freeze := { latch := true, line := false, command := true, level := false } }).freeze.command
        = true := ⟨.inl rfl, rfl, by decide +kernel⟩

theorem witness_LineRiseAndRelease :
    State.reset.Settled ∧ State.reset.frz.accepted = false ∧ State.reset.freeze.line = false ∧
      ({ State.reset with freeze := { latch := true, line := true, command := false, level := false } }).freeze.line = true ∧
      (∃ u, exec .frzRise (one (win 0#2 .armed .closed) (entry .dirty 0#2)) = .next u ∧ u.groupReady 0 = true) ∧
      State.reset.portReady ∧ State.reset.Settled ∧ State.reset.freeze.latch = false ∧ (after .frzRise State.reset).freeze.latch = true ∧
      (after .frzRise State.reset).freeze.level = true ∧
      (after (.freeze 0#8) State.reset).freeze.latch = true ∧ (after (.freeze 0#8) State.reset).freeze.level = false :=
  ⟨rfl, rfl, rfl, rfl, ⟨_, rfl, by decide +kernel⟩, .inl rfl, rfl, by decide +kernel⟩

theorem witness_LineFallLowersTheLevel :
    (after .frzRise State.reset).frz.accepted = true ∧ (after .frzRise State.reset).portReady ∧
      (after .frzRise State.reset).Settled ∧
      (after .frzRise State.reset).freeze.line = true := ⟨by decide +kernel, .inl rfl, rfl, by decide +kernel⟩

/-! ## A state in service that satisfies every law -/

/-- Window 0 ENABLED with its two pages STALE and queued, the timer INTERNAL, a GRANT waiting. -/
def served : State :=
  { ((State.reset.setWindow 0 { win 0#2 .isOpen .closed with readyPending := true }).setPage 0 (entry .stale 0#2)).setPage
      1 (entry .stale 0#2) with
    copyQueue := [0, 1], timer := { Timer.reset with mode := .internal }, pending := [.grant] }

theorem served_page (p : Fin 512) : served.page p = if p.val < 2 then entry .stale 0#2 else PageEntry.reset := by
  show (((State.reset.setWindow 0 _).setPage 0 _).setPage 1 _).page p = _
  simp only [page_setPage]
  by_cases h1 : p = 1
  · subst h1; rfl
  · by_cases h0 : p = 0
    · subst h0; rfl
    · have k : ¬p.val < 2 := fun h => by
        have : p.val = 0 ∨ p.val = 1 := by omega
        rcases this with h | h
        · exact h0 (Fin.ext h)
        · exact h1 (Fin.ext h)
      rw [if_neg h1, if_neg h0, if_neg k]
      exact Vector.getElem_replicate _

theorem served_inRun (p : Fin 512) : (served.desc 0).inRun p = decide (p.val < 2) := by
  have h : served.desc 0 = d0 0#2 false := by decide +kernel
  simp [h, Descriptor.inRun, d0]

theorem served_enabled (w : Fin 8) (h : served.enabled w = true) : w = 0 := by
  revert h; revert w; decide +kernel

theorem served_inv : served.Inv where
  events := ⟨by decide +kernel, by decide +kernel, by decide +kernel⟩
  freeze := ⟨by decide +kernel, by decide +kernel, by decide +kernel⟩
  groups := by unfold State.GroupsOk; decide +kernel
  timer := by constructor <;> decide +kernel
  ports := ⟨(by intro x h; cases x <;> exact absurd rfl h), (by intro a why w p h; cases h), by decide +kernel,
    by decide +kernel⟩
  arbiter :=
    ⟨fun b => ⟨(by intro h; cases h), (by rintro ⟨a, r, h, _⟩; cases h)⟩,
      fun b => ⟨(by intro h; cases h), (by rintro ⟨a, r, h, _⟩; cases h)⟩, (by intro h; cases h), fun _ => rfl,
      by decide +kernel⟩
  windows := by
    constructor
    · decide +kernel
    · unfold State.inService; decide +kernel
    · unfold State.inService; decide +kernel
    · have h : ∀ w, (served.window w).enable ≠ .draining := by decide +kernel
      exact fun w hw => absurd hw (h w)
  pages := by
    constructor
    · intro p h
      refine ⟨0, (by decide +kernel : (served.window 0).enable ≠ .disabled), ?_⟩
      rw [served_inRun]
      by_contra hp
      exact h (by rw [served_page, if_neg (by simpa using hp)]; rfl)
    · intro w p hw hp
      obtain rfl := served_enabled w hw
      rw [served_inRun, decide_eq_true_eq] at hp
      rw [served_page, if_pos hp]
      decide
    · intro w p hw
      exact absurd hw ((by decide +kernel : ∀ w, (served.window w).enable ≠ .draining) w)
    · intro p
      rw [served_page]
      show p ∈ [0, 1] ↔ _
      constructor
      · intro h
        rw [if_pos (by simp at h; rcases h with rfl | rfl <;> decide)]
        rfl
      · intro h
        split at h
        · have : p.val = 0 ∨ p.val = 1 := by omega
          rcases this with k | k
          · exact List.mem_cons.2 (.inl (Fin.ext k))
          · exact List.mem_cons.2 (.inr (List.mem_cons.2 (.inl (Fin.ext k))))
        · cases h
    · decide
    · intro p
      rw [served_page]
      refine ⟨fun h => ?_, fun h => by cases h⟩
      split at h <;> cases h
    · exact ⟨fun _ => rfl, fun _ => rfl⟩
    · exact fun _ => ⟨rfl, rfl⟩
    · intro p
      by_cases h : p.val < 2
      · rw [served_page, if_pos h]
        exact (by decide : (0#2 : BitVec 2) ≠ 3#2)
      · rw [served_page, if_neg h]
        rfl
  judged := by intro x; cases x <;> trivial
  demand := by intro p h; cases h
  flip := by intro f h; cases h
  mgmt := ⟨by decide, fun _ => rfl, fun _ => ⟨rfl, rfl⟩, fun _ => ⟨rfl, rfl⟩⟩

theorem served_steps : ∃ t, step served = .next t := ⟨_, rfl⟩

theorem witness_EventFreezeAndGroupLawsAreKept :
    served.EventsOk ∧ served.FreezeOk ∧ served.GroupsOk ∧ served.mgmt.Ok ∧ ∃ t, step served = .next t :=
  ⟨served_inv.events, served_inv.freeze, served_inv.groups, served_inv.mgmt, served_steps⟩

theorem witness_TimerLawsAreKept : served.timer.Ok ∧ ∃ t, step served = .next t := ⟨served_inv.timer, served_steps⟩

theorem witness_PortAndJudgementLawsAreKept :
    served.PortsOk ∧ served.JudgedOk ∧ served.DemandOk ∧ ∃ t, step served = .next t :=
  ⟨served_inv.ports, served_inv.judged, served_inv.demand, served_steps⟩

theorem witness_ArbiterAndFlipLawsAreKept : served.Inv ∧ ∃ t, step served = .next t := ⟨served_inv, served_steps⟩

theorem witness_WindowLawsAreKept : served.Inv ∧ ∃ t, step served = .next t := ⟨served_inv, served_steps⟩

theorem witness_PageLawsAreKept : served.Inv ∧ ∃ t, step served = .next t := ⟨served_inv, served_steps⟩

end Sys2Proof.Tests
end

section
/-! When ENABLE is taken (R17): each Boolean test of `State.enableOk` is the condition of the manual, given that the
ranges compared are not empty; the windows in service, whose descriptors passed the tests, have no empty range. -/

namespace Sys2Proof.Laws

open Sys2Proof Sys2Proof.Machine

/-! ## Ranges and runs -/

theorem overlaps_iff_meets {r t : Region} (hr : 0 < r.size) (ht : 0 < t.size) : r.overlaps t = true ↔ r.meets t := by
  simp only [Region.overlaps, Region.meets, Region.has, Bool.and_eq_true, decide_eq_true_eq]
  constructor
  · intro h
    exact ⟨max r.base t.base, by omega⟩
  · rintro ⟨x, hx⟩
    omega

theorem not_overlaps_iff {r t : Region} (hr : 0 < r.size) (ht : 0 < t.size) : (!r.overlaps t) = true ↔ ¬r.meets t := by
  rw [Bool.not_eq_true', ← Bool.not_eq_true, overlaps_iff_meets hr ht]

theorem inRun_iff (d : Descriptor) (p : Fin 512) :
    d.inRun p = true ↔ d.pageFirst.toNat ≤ p.val ∧ p.val < d.pageFirst.toNat + d.pageCount.toNat := by
  simp [Descriptor.inRun]

theorem mem_regions (d : Descriptor) (r : Region) :
    r ∈ d.regions ↔ r = d.view ∨ r = d.bankRegion .a ∨ r = d.bankRegion .b := by
  simp [Descriptor.regions]

theorem size_of_mem_regions {d : Descriptor} {r : Region} (h : r ∈ d.regions) : r.size = d.viewSize := by
  rcases (mem_regions d r).1 h with rfl | rfl | rfl <;> rfl

theorem size_of_mem_markerWords {d : Descriptor} {m : Region} (h : m ∈ d.markerWords) : m.size = 4 := by
  simp only [Descriptor.markerWords, List.mem_cons, List.not_mem_nil, or_false] at h
  rcases h with rfl | rfl | rfl <;> rfl

/-! ## The conditions on the descriptor alone -/

theorem pageSizeOk_iff (d : Descriptor) : d.pageSizeOk = true ↔ d.pageSize ∈ [64#10, 128#10, 256#10, 512#10] :=
  List.contains_iff_mem

theorem runOk_iff (d : Descriptor) : d.runOk = true ↔
    1 ≤ d.pageCount.toNat ∧ d.pageCount.toNat ≤ 512 ∧ d.pageFirst.toNat + d.pageCount.toNat ≤ 512 := by
  simp only [Descriptor.runOk, Bool.and_eq_true, decide_eq_true_eq]
  omega

theorem basesOk_iff (d : Descriptor) : d.basesOk = true ↔
    ∀ r ∈ d.regions, r.base % d.pageSize.toNat = 0 ∧ r.base + r.size ≤ 2 ^ 32 := by
  simp [Descriptor.basesOk]

theorem policyOk_iff (d : Descriptor) : d.policyOk = true ↔ d.policy ≠ 3#2 := by
  simp [Descriptor.policyOk]

theorem markersOk_iff (d : Descriptor) : d.markersOk = true ↔ d.cma.toNat % 4 = 0 ∧ d.lma.toNat % 8 = 0 := by
  simp [Descriptor.markersOk]

/-- R17: with conditions 1 and 2 the view is not empty. -/
theorem viewSize_pos {d : Descriptor} (hs : d.pageSizeOk = true) (hr : d.runOk = true) : 0 < d.viewSize := by
  have hcount : 0 < d.pageCount.toNat := ((runOk_iff d).1 hr).1
  have hsize : 0 < d.pageSize.toNat := by
    have h := (pageSizeOk_iff d).1 hs
    simp only [List.mem_cons, List.not_mem_nil, or_false] at h
    rcases h with h | h | h | h <;> rw [h] <;> decide
  exact Nat.mul_pos hcount hsize

theorem banksApart_iff {d : Descriptor} (h : 0 < d.viewSize) :
    d.banksApart = true ↔ ¬(d.bankRegion .a).meets (d.bankRegion .b) := not_overlaps_iff h h

theorem bankViewOk_iff {d : Descriptor} (h : 0 < d.viewSize) : d.bankViewOk = true ↔
    ¬(d.bankRegion .b).meets d.view ∧ (d.bankABase = d.viewBase ∨ ¬(d.bankRegion .a).meets d.view) := by
  rw [Descriptor.bankViewOk, Bool.and_eq_true, Bool.or_eq_true, beq_iff_eq, not_overlaps_iff h h, not_overlaps_iff h h]

theorem usable_iff (d : Descriptor) : d.usable = true ↔
    d.pageSizeOk = true ∧ d.runOk = true ∧ d.basesOk = true ∧ d.policyOk = true ∧ d.banksApart = true ∧
      d.bankViewOk = true ∧ d.markersOk = true ∧ d.markersClear d = true := by
  simp only [Descriptor.usable, Bool.and_eq_true, and_assoc]

theorem viewSize_pos_of_usable {d : Descriptor} (h : d.usable = true) : 0 < d.viewSize := by
  obtain ⟨hsize, hrun, -⟩ := (usable_iff d).1 h
  exact viewSize_pos hsize hrun

theorem runOk_of_usable {d : Descriptor} (h : d.usable = true) : d.runOk = true := by
  obtain ⟨-, hrun, -⟩ := (usable_iff d).1 h
  exact hrun

/-! ## The conditions against another window -/

theorem runApart_iff {d e : Descriptor} (hd : d.runOk = true) (he : e.runOk = true) :
    d.runApart e = true ↔ ∀ p, ¬(d.inRun p = true ∧ e.inRun p = true) := by
  rw [runOk_iff] at hd he
  simp only [Descriptor.runApart, inRun_iff, Bool.or_eq_true, decide_eq_true_eq]
  constructor
  · intro h p
    omega
  · intro h
    have hmeet := h ⟨max d.pageFirst.toNat e.pageFirst.toNat, by omega⟩
    dsimp only at hmeet
    omega

theorem viewApart_iff {d e : Descriptor} (hd : 0 < d.viewSize) (he : 0 < e.viewSize) :
    d.viewApart e = true ↔ ∀ r ∈ e.regions, ¬d.view.meets r := by
  rw [Descriptor.viewApart, List.all_eq_true]
  exact forall₂_congr fun r hr => not_overlaps_iff hd (size_of_mem_regions hr ▸ he)

theorem bankApart_iff {d e : Descriptor} (hd : 0 < d.viewSize) (he : 0 < e.viewSize) :
    d.bankApart e = true ↔ ∀ r ∈ e.regions, ¬(d.bankRegion .a).meets r ∧ ¬(d.bankRegion .b).meets r := by
  rw [Descriptor.bankApart, List.all_eq_true]
  refine forall₂_congr fun r hr => ?_
  have hpos : 0 < r.size := size_of_mem_regions hr ▸ he
  rw [Bool.and_eq_true, not_overlaps_iff hd hpos, not_overlaps_iff hd hpos]

theorem markersClear_iff {d e : Descriptor} (he : 0 < e.viewSize) :
    d.markersClear e = true ↔ ∀ m ∈ d.markerWords, ∀ r ∈ e.regions, ¬m.meets r := by
  simp only [Descriptor.markersClear, List.all_eq_true]
  refine forall₂_congr fun m hm => forall₂_congr fun r hr => ?_
  exact not_overlaps_iff (by rw [size_of_mem_markerWords hm]; decide) (size_of_mem_regions hr ▸ he)

theorem markersApart_iff (d e : Descriptor) :
    d.markersApart e = true ↔ ∀ m ∈ d.markerWords, ∀ n ∈ e.markerWords, m.base ≠ n.base := by
  simp only [Descriptor.markersApart, List.all_eq_true, bne_iff_ne]

theorem clearOf_iff (d e : Descriptor) : d.clearOf e = true ↔
    d.runApart e = true ∧ d.viewApart e = true ∧ d.bankApart e = true ∧ d.markersClear e = true ∧
      d.markersApart e = true := by
  simp only [Descriptor.clearOf, Bool.and_eq_true, and_assoc]

/-! ## The twelve conditions -/

theorem enableOk_iff (s : State) (w : Fin 8) : s.enableOk w = true ↔
    (s.desc w).usable = true ∧ ∀ v, v ≠ w → s.inService v → (s.desc w).clearOf (s.desc v) = true := by
  simp [State.enableOk, State.others, State.inService, mem_allWindows, or_iff_not_imp_left]

theorem enableOk_of_enableConditions {s : State} {w : Fin 8} (hu : ∀ v, s.inService v → (s.desc v).usable = true)
    (c : s.EnableConditions w) : s.enableOk w = true := by
  have hsize := (pageSizeOk_iff _).2 c.pageSize
  have hrun := (runOk_iff _).2 c.pageCount
  have hpos := viewSize_pos hsize hrun
  refine (enableOk_iff s w).2 ⟨(usable_iff _).2 ⟨hsize, hrun, (basesOk_iff _).2 c.bases, (policyOk_iff _).2 c.policy,
    (banksApart_iff hpos).2 c.banks, (bankViewOk_iff hpos).2 c.ownView, (markersOk_iff _).2 c.alignment,
    (markersClear_iff hpos).2 (c.markerWords w (.inl rfl))⟩, fun v hv hs => ?_⟩
  have hother := viewSize_pos_of_usable (hu v hs)
  exact (clearOf_iff _ _).2 ⟨(runApart_iff hrun (runOk_of_usable (hu v hs))).2 (c.runs v hv hs),
    (viewApart_iff hpos hother).2 (c.views v hv hs), (bankApart_iff hpos hother).2 (c.otherBanks v hv hs),
    (markersClear_iff hother).2 (c.markerWords v (.inr hs)), (markersApart_iff _ _).2 (c.markers v hv hs)⟩

theorem enableConditions_of_enableOk {s : State} {w : Fin 8} (hu : ∀ v, s.inService v → (s.desc v).usable = true)
    (h : s.enableOk w = true) : s.EnableConditions w := by
  obtain ⟨husable, hclear⟩ := (enableOk_iff s w).1 h
  obtain ⟨hsize, hrun, hbases, hpolicy, hbanks, hown, halign, hmarkers⟩ := (usable_iff _).1 husable
  have hpos := viewSize_pos hsize hrun
  have hother := fun v hs => viewSize_pos_of_usable (hu v hs)
  have hapart := fun v hv hs => (clearOf_iff _ _).1 (hclear v hv hs)
  exact {
    pageSize := (pageSizeOk_iff _).1 hsize
    pageCount := (runOk_iff _).1 hrun
    bases := (basesOk_iff _).1 hbases
    policy := (policyOk_iff _).1 hpolicy
    banks := (banksApart_iff hpos).1 hbanks
    ownView := (bankViewOk_iff hpos).1 hown
    alignment := (markersOk_iff _).1 halign
    runs := fun v hv hs =>
      have ⟨hruns, _⟩ := hapart v hv hs
      (runApart_iff hrun (runOk_of_usable (hu v hs))).1 hruns
    views := fun v hv hs =>
      have ⟨_, hviews, _⟩ := hapart v hv hs
      (viewApart_iff hpos (hother v hs)).1 hviews
    otherBanks := fun v hv hs =>
      have ⟨_, _, hregions, _⟩ := hapart v hv hs
      (bankApart_iff hpos (hother v hs)).1 hregions
    markerWords := fun v hv => by
      by_cases hw : v = w
      · rw [hw]
        exact (markersClear_iff hpos).1 hmarkers
      · have hs := hv.resolve_left hw
        obtain ⟨-, -, -, hwords, -⟩ := hapart v hw hs
        exact (markersClear_iff (hother v hs)).1 hwords
    markers := fun v hv hs =>
      have ⟨_, _, _, _, hwords⟩ := hapart v hv hs
      (markersApart_iff _ _).1 hwords }

/-- R17: the tests of ENABLE are the twelve conditions, where the windows in service hold usable descriptors. -/
theorem enableOk_iff_enableConditions {s : State} (w : Fin 8) (hu : ∀ v, s.inService v → (s.desc v).usable = true) :
    s.enableOk w = true ↔ s.EnableConditions w :=
  ⟨enableConditions_of_enableOk hu, enableOk_of_enableConditions hu⟩

/-! ## The action -/

/-- R177: the argument byte of a window action is the number of its window. -/
theorem windowAction_window (s : State) (w : Fin 8) (act : State → Fin 8 → State × Status) :
    s.windowAction (BitVec.ofNat 8 w.val) act = act s w := by
  have hw : (BitVec.ofNat 8 w.val).toNat = w.val := by
    rw [BitVec.toNat_ofNat]
    omega
  unfold State.windowAction
  rw [hw, if_pos w.isLt, Fin.ofNat_val_eq_self]

/-- R169, R177: a window action from a settled state with the port ready. -/
theorem event_windowAction {s : State} (w : Fin 8) (act : State → Fin 8 → State × Status) (hp : s.portReady)
    (hs : s.Settled) :
    s.event (fun u => u.transactStatus fun t => t.windowAction (BitVec.ofNat 8 w.val) act) =
      .next ((act s w).1.answer [(act s w).2.code]) := by
  rw [event_settled _ hs, transactStatus_ready _ _ hp, windowAction_window]

theorem exec_enable {s : State} (w : Fin 8) (hp : s.portReady) (hs : s.Settled) :
    exec (.enable (BitVec.ofNat 8 w.val)) s =
      .next ((s.enableWindow w).1.answer [(s.enableWindow w).2.code]) := event_windowAction w State.enableWindow hp hs

theorem enableWindow_inService {s : State} {w : Fin 8} (h : (s.window w).enable ≠ .disabled) :
    s.enableWindow w = (s, .refusedState) := by
  unfold State.enableWindow
  cases he : (s.window w).enable with
  | disabled => exact absurd he h
  | enabled => rfl
  | draining => rfl

theorem enableWindow_taken {s : State} {w : Fin 8} (h : (s.window w).enable = .disabled) (hok : s.enableOk w = true) :
    s.enableWindow w = ((s.putInService w).rejudge, .ok) := by
  unfold State.enableWindow
  rw [h]
  exact if_pos hok

theorem enableWindow_failed {s : State} {w : Fin 8} (h : (s.window w).enable = .disabled) (hok : ¬s.enableOk w = true) :
    s.enableWindow w = (s, .refusedConfig) := by
  unfold State.enableWindow
  rw [h]
  exact if_neg hok

theorem putInService_window (s : State) (w : Fin 8) : (s.putInService w).window w = (s.window w).inService :=
  window_setWindow_same _ w _

theorem putInService_rejudge_enabled (s : State) (w : Fin 8) : (s.putInService w).rejudge.enabled w = true := by
  unfold State.enabled
  rw [window_congr (rejudge_windows _), putInService_window]
  rfl

/-- Settles O47: the tests of ENABLE are the twelve conditions (`enableOk_iff_enableConditions`). -/
theorem enableTestsTheDescriptor : Obligations.EnableTestsTheDescriptor := by
  intro s w hport hsettled husable
  refine ⟨fun hservice => ?_, fun hdisabled hfails => ?_, fun hdisabled hholds => ?_⟩
  · rw [exec_enable w hport hsettled, enableWindow_inService hservice]
    rfl
  · rw [← enableOk_iff_enableConditions w husable] at hfails
    rw [exec_enable w hport hsettled, enableWindow_failed hdisabled hfails]
    rfl
  · rw [← enableOk_iff_enableConditions w husable] at hholds
    refine ⟨(s.putInService w).rejudge.answer [0x01#8], ?_, rfl, putInService_rejudge_enabled s w⟩
    rw [exec_enable w hport hsettled, enableWindow_taken hdisabled hholds]
    rfl

end Sys2Proof.Laws
end

section
/-! The accesses of a view that one judgement settles: consumer accesses (R34) and producer reads (R35). What a handler
does with an accepted access and with one that waits is a single judgement (R29), so each access is judged once below,
and both its acceptance and its judgement anew cite that. -/

namespace Sys2Proof.Laws

open Sys2Proof Sys2Proof.Machine

/-! ## When an access is judged -/

theorem accept_of_formOk (s : State) (x : Port) {a : Access} (h : formOk a = true) : s.accept x a = s.judgeAccess x a :=
  if_pos h

theorem present_of_idle {s : State} {x : Port} (a : Access) (h : s.phaseOf x = .idle) : s.present x a = s.accept x a := by
  unfold State.present
  rw [h]

/-- R25, R29: an IDLE handler judges the access it accepts. -/
theorem exec_accessAccepted_judged {s : State} {x : Port} {a : Access} (hsettled : s.Settled) (hidle : s.phaseOf x = .idle)
    (hform : formOk a = true) : exec (.accessAccepted x a) s = .next (s.judgeAccess x a) := by
  show s.event (fun t => t.present x a) = _
  rw [event_settled _ hsettled, present_of_idle a hidle, accept_of_formOk s x hform]

/-- R29: a handler judges the access that waits in it anew. -/
theorem settle_of_waits {s : State} {x : Port} {a : Access} (h : s.waits x a) : s.settle x = s.judgeAccess x a := by
  unfold State.settle
  rcases h with ⟨r, h⟩ | ⟨why, w, p, h⟩ <;> rw [h]

theorem recordsNow_of_idle {s : State} {x : Port} (h : s.phaseOf x = .idle) : s.recordsNow x = false := by
  unfold State.recordsNow
  rw [h]

/-- R29: beside an IDLE P-port Handler the consumer's judgement is all there is. -/
theorem rejudge_of_producer_idle {s : State} (h : s.phaseOf .p = .idle) : s.rejudge = s.settle .c := by
  rw [rejudge_of_no_record s .p (recordsNow_of_idle h), settle_idle s .p h]

/-! ## What a judgement does -/

/-- R42: no read is a late write. -/
theorem mergeToNote_of_read (s : State) (x : Port) {a : Access} (h : a.write = false) : s.mergeToNote x a = none := by
  unfold State.mergeToNote
  rw [h]
  cases x <;> rfl

/-- An access that is no late write to note takes its judgement alone. -/
theorem judgeAccess_of_not_noted {s : State} {x : Port} {a : Access} (h : s.mergeToNote x a = none) :
    s.judgeAccess x a = s.takeJudgement x a (s.judge x a) := by
  unfold State.judgeAccess State.noteMerge
  rw [h]

theorem judge_of_view {s : State} {x : Port} {a : Access} {w : Fin 8} (h : s.place x a = .view w) :
    s.judge x a = s.judgeView x w ((s.desc w).pageAt a.addr) a := by
  unfold State.judge
  rw [h]

theorem judgeView_consumerRead (s : State) (w : Fin 8) (p : Fin 512) {a : Access} (h : a.write = false) :
    s.judgeView .c w p a = s.served w p (s.page p).bank a := by
  unfold State.judgeView
  rw [h]

theorem judgeView_consumerWrite (s : State) (w : Fin 8) (p : Fin 512) {a : Access} (h : a.write = true) :
    s.judgeView .c w p a = .refuse { kind := .ownership, window := some w, page := some p } := by
  unfold State.judgeView
  rw [h]

/-- R35: the copy that serves a producer read: the other one of a DIRTY page, else the current one. -/
def producerReadBank (e : PageEntry) : Bank := if e.state = .dirty then e.bank.other else e.bank

theorem producerReadBank_dirty {e : PageEntry} (h : e.state = .dirty) : producerReadBank e = e.bank.other := if_pos h

theorem producerReadBank_not_dirty {e : PageEntry} (h : e.state ≠ .dirty) : producerReadBank e = e.bank := if_neg h

theorem judgeView_producerRead (s : State) (w : Fin 8) (p : Fin 512) {a : Access} (h : a.write = false) :
    s.judgeView .p w p a = s.served w p (producerReadBank (s.page p)) a := by
  unfold State.judgeView
  rw [h]
  rfl

/-- R27: a write that the bridge answers ERROR carries no data. -/
theorem refuseAccess_of_write (s : State) (x : Port) {a : Access} (h : a.write = true) :
    s.refuseAccess x a = s.setPort x { phase := .idle, resp := some { resp := .error, rdata := [] } } := by
  rw [refuseAccess_eq, readBeats_nil, if_pos h]

/-! ## The accesses of a view -/

/-- The handler of an access that waits for its grant to a bank of page `p` of window `w` (R33). -/
def waitingForGrant (s : State) (w : Fin 8) (p : Fin 512) (bank : Bank) (a : Access) : PortState :=
  { phase := .pending a { cls := .view w p bank, addr := (s.desc w).bankAddr bank a.addr }, resp := none }

/-- The handler of a write just answered ERROR (R27). -/
def writeRefused : PortState := { phase := .idle, resp := some { resp := .error, rdata := [] } }

theorem takeJudgement_served (s : State) (x : Port) (w : Fin 8) (p : Fin 512) (bank : Bank) (a : Access) :
    s.takeJudgement x a (s.served w p bank a) = (s.clearHold x).setPort x (waitingForGrant s w p bank a) := rfl

/-- R34: a consumer read of a view waits for its grant alone, resolved to the current copy of its page. -/
theorem judgeAccess_consumerRead {s : State} {a : Access} {w : Fin 8} (hread : a.write = false)
    (hplace : s.place .c a = .view w) :
    s.judgeAccess .c a =
      { s with cPort := waitingForGrant s w ((s.desc w).pageAt a.addr) (s.page ((s.desc w).pageAt a.addr)).bank a } := by
  rw [judgeAccess_of_not_noted (mergeToNote_consumer s a), judge_of_view hplace, judgeView_consumerRead s w _ hread,
    takeJudgement_served]
  rfl

/-- R34: a consumer write of a view is answered ERROR with OWNERSHIP, and changes nothing else. -/
theorem judgeAccess_consumerWrite {s : State} {a : Access} {w : Fin 8} (hwrite : a.write = true)
    (hplace : s.place .c a = .view w) :
    s.judgeAccess .c a = { s with cPort := writeRefused }.record
      { kind := .ownership, window := some w, page := some ((s.desc w).pageAt a.addr) } := by
  rw [judgeAccess_of_not_noted (mergeToNote_consumer s a), judge_of_view hplace, judgeView_consumerWrite s w _ hwrite]
  show ((s.clearHold .c).refuseAccess .c a).record _ = _
  rw [refuseAccess_of_write _ .c hwrite]
  rfl

/-- R35: a producer read of a view waits for its grant alone, whatever the commit state of its window. -/
theorem judgeAccess_producerRead {s : State} {a : Access} {w : Fin 8} (hread : a.write = false)
    (hplace : s.place .p a = .view w) :
    s.judgeAccess .p a = { s with
      holdCount := 0
      pPort := waitingForGrant s w ((s.desc w).pageAt a.addr)
        (producerReadBank (s.page ((s.desc w).pageAt a.addr))) a } := by
  rw [judgeAccess_of_not_noted (mergeToNote_of_read s .p hread), judge_of_view hplace, judgeView_producerRead s w _ hread,
    takeJudgement_served]
  rfl

/-! ## The two statements -/

/-- Settles O24: a consumer access of a view is judged once, as `judgeAccess_consumerRead` and
`judgeAccess_consumerWrite` say, at its acceptance and wherever it waits. -/
theorem consumerAccessOfAView : Obligations.ConsumerAccessOfAView := by
  refine ⟨fun s a w hsettled hidle hform hplace => ⟨fun hread => ?accepted_read, fun hwrite => ?accepted_write⟩,
    fun s a r w hpending hread hplace => ?waiting_read,
    fun s a r w hpending hwrite hplace => ⟨?waiting_write, fun hproducer => ?waiting_write_alone⟩⟩
  case accepted_read =>
    rw [exec_accessAccepted_judged (x := .c) hsettled hidle hform, judgeAccess_consumerRead hread hplace]
    rfl
  case accepted_write =>
    rw [exec_accessAccepted_judged (x := .c) hsettled hidle hform, judgeAccess_consumerWrite hwrite hplace]
    rfl
  case waiting_read =>
    rw [rejudge_cPort, settle_of_waits (x := .c) (.inl ⟨r, hpending⟩), judgeAccess_consumerRead hread hplace]
    rfl
  case waiting_write =>
    rw [rejudge_cPort, settle_of_waits (x := .c) (.inl ⟨r, hpending⟩), judgeAccess_consumerWrite hwrite hplace,
      record_cPort]
    rfl
  case waiting_write_alone =>
    rw [rejudge_of_producer_idle hproducer, settle_of_waits (x := .c) (.inl ⟨r, hpending⟩),
      judgeAccess_consumerWrite hwrite hplace]
    rfl

/-- Settles O25: a producer read of a view is judged once, as `judgeAccess_producerRead` says, at its acceptance and
wherever it waits. -/
theorem producerReadOfAView : Obligations.ProducerReadOfAView := by
  refine ⟨fun s a w hsettled hidle hform hread hplace => ⟨fun hdirty => ?dirty, fun hother => ?not_dirty⟩,
    fun s a r w hpending hread hplace => ?waiting⟩
  case dirty =>
    rw [exec_accessAccepted_judged (x := .p) hsettled hidle hform, judgeAccess_producerRead hread hplace,
      producerReadBank_dirty hdirty]
    rfl
  case not_dirty =>
    rw [exec_accessAccepted_judged (x := .p) hsettled hidle hform, judgeAccess_producerRead hread hplace,
      producerReadBank_not_dirty hother]
    rfl
  case waiting =>
    rw [rejudge_pPort, settle_of_waits (x := .p) (.inl ⟨r, hpending⟩), judgeAccess_producerRead hread hplace]
    rfl

end Sys2Proof.Laws
end

section
/-! The commit groups after a hard reset (R107): a hard reset puts every window and every group at its hard-reset value,
and a state with no window in service has no member to make a group ready. -/

namespace Sys2Proof.Laws

open Sys2Proof Sys2Proof.Machine

/-! ## A hard reset -/

/-- R136: a grant that is due comes before the reset, which discards what the grant did to the blocks. -/
theorem exec_hardReset (s : State) : exec .hardReset s = .next s.settled.hardReset := rfl

@[simp] theorem window_hardReset (s : State) (w : Fin 8) : s.hardReset.window w = Window.reset :=
  Vector.getElem_replicate _

@[simp] theorem group_hardReset (s : State) (g : Fin 4) : s.hardReset.group g = Group.reset :=
  Vector.getElem_replicate _

/-! ## No window in service -/

/-- R84: only a window in service is a member. -/
theorem members_eq_nil_of_not_enabled {s : State} (h : ∀ w, s.enabled w = false) (g : Fin 4) : s.members g = [] := by
  rw [List.eq_nil_iff_forall_not_mem]
  intro w hmember
  have henabled : s.enabled w = true := isMember_enabled ((mem_members s g w).mp hmember)
  rw [h w] at henabled
  contradiction

/-- R85: a group without a member is not ready. -/
theorem groupReady_eq_false_of_no_member {s : State} {g : Fin 4} (h : s.members g = []) : s.groupReady g = false := by
  unfold State.groupReady
  rw [h]
  rfl

theorem enabled_hardReset (s : State) (w : Fin 8) : s.hardReset.enabled w = false := by
  unfold State.enabled
  rw [window_hardReset]
  rfl

theorem members_hardReset (s : State) (g : Fin 4) : s.hardReset.members g = [] :=
  members_eq_nil_of_not_enabled (enabled_hardReset s) g

/-! ## The statement -/

/-- Settles O11: the windows and groups stand at their hard-reset values, and no group is ready for want of members. -/
theorem hardResetLeavesGroupsIdle : Obligations.HardResetLeavesGroupsIdle := by
  intro s
  refine ⟨s.settled.hardReset, exec_hardReset s, fun g => ?groups, rfl, fun w => ?windows, members_hardReset s.settled,
    fun g => groupReady_eq_false_of_no_member (members_hardReset s.settled g), rfl⟩
  case groups =>
    rw [group_hardReset]
    exact ⟨rfl, rfl, rfl⟩
  case windows =>
    rw [window_hardReset]
    rfl

end Sys2Proof.Laws
end

section
/-! The Freeze Unit: the FREEZE action (R146), and an accepted fall of FRZ with what RELEASE and a rise find after it
(R147). -/

namespace Sys2Proof.Laws

open Sys2Proof Sys2Proof.Machine

/-! ## The actions -/

/-- R169, R177: FREEZE from a settled state with the port ready. -/
theorem exec_freeze {s : State} (arg : Byte) (hp : s.portReady) (hs : s.Settled) :
    exec (.freeze arg) s = .next (s.freezeAction.1.answer [s.freezeAction.2.code]) := by
  show s.event (fun t => t.transactStatus State.freezeAction) = _
  rw [event_settled _ hs, transactStatus_ready _ _ hp]

/-- R169, R177: RELEASE from a settled state with the port ready. -/
theorem exec_release {s : State} (arg : Byte) (hp : s.portReady) (hs : s.Settled) :
    exec (.release arg) s = .next (s.releaseAction.1.answer [s.releaseAction.2.code]) := by
  show s.event (fun t => t.transactStatus State.releaseAction) = _
  rw [event_settled _ hs, transactStatus_ready _ _ hp]

theorem freezeAction_of_clear {s : State} (h : s.freeze.command = false) :
    s.freezeAction = (({ s with freeze := { s.freeze with command := true, latch := true } } : State).record
      { kind := .frozen, detail := 0x02#8 }, .ok) := by
  unfold State.freezeAction
  exact if_neg (ne_true_of_eq_false h)

theorem freezeAction_of_set {s : State} (h : s.freeze.command = true) : s.freezeAction = (s, .ok) := by
  unfold State.freezeAction
  exact if_pos h

/-- R148: only a high line level has RELEASE refused. -/
theorem releaseAction_status_of_level_low {s : State} (h : s.freeze.level = false) : s.releaseAction.2 = .ok := by
  unfold State.releaseAction
  cases s.freeze.latch with
  | true => rw [if_pos rfl, if_neg (ne_true_of_eq_false h)]
  | false => rfl

/-- R169: the port tells apart transactions that return other bytes. -/
theorem answer_bytes {s t : State} {out out' : List Byte} (h : s.answer out = t.answer out') : out = out' :=
  congrArg (fun u : State => u.mgmt.out) h

/-! ## The line -/

theorem exec_frzFall {s : State} (hs : s.Settled) : exec .frzFall s = .next (s.acceptFrz false) := by
  show s.event (fun t => t.acceptFrz false) = _
  rw [event_settled _ hs]

theorem exec_frzRise {s : State} (hs : s.Settled) : exec .frzRise s = .next (s.acceptFrz true) := by
  show s.event (fun t => t.acceptFrz true) = _
  rw [event_settled _ hs]

/-- R147: the state that an accepted fall of FRZ leaves. -/
def lineLow (s : State) : State :=
  { s with frz := { pin := false, accepted := false, run := 0 }, freeze := { s.freeze with level := false } }

theorem acceptFrz_fall {s : State} (h : s.frz.accepted = true) : s.acceptFrz false = lineLow s := by
  unfold State.acceptFrz
  rw [h]
  rfl

/-- R136: no grant depends on the line. -/
theorem settled_lineLow {s : State} (h : s.Settled) : (lineLow s).Settled := h

/-- R145: a rise delivered with the LINE flag set makes no record. -/
theorem lineRise_of_line {s : State} (h : s.freeze.line = true) :
    s.lineRise = { s with freeze := { s.freeze with level := true, line := true, latch := true } } := by
  unfold State.lineRise
  exact if_pos h

theorem acceptFrz_rise_of_line {s : State} (h : s.frz.accepted = false) (hline : s.freeze.line = true) :
    s.acceptFrz true = { s with
      frz := { pin := true, accepted := true, run := 0 }
      freeze := { s.freeze with level := true, line := true, latch := true } } := by
  unfold State.acceptFrz
  rw [h]
  exact lineRise_of_line (s := { s with frz := { pin := true, accepted := true, run := 0 } }) hline

/-! ## The two statements -/

/-- Settles O51: the two cases of the COMMAND flag are the two branches of `State.freezeAction`. -/
theorem freezeSetsTheCommandFlag : Obligations.FreezeSetsTheCommandFlag := by
  intro s arg hport hsettled
  refine ⟨fun hclear => ⟨_, ?next, rfl, ?unit⟩, fun hset => ?unchanged⟩
  case next =>
    rw [exec_freeze arg hport hsettled, freezeAction_of_clear hclear]
    rfl
  case unit => rw [answer_freeze, arrive_freeze]
  case unchanged =>
    rw [exec_freeze arg hport hsettled, freezeAction_of_set hset]
    rfl

/-- Settles O53: a fall leaves `lineLow s`, in which the level is low, so RELEASE answers OK, and the LINE flag still
stands, so a rise makes no record. -/
theorem lineFallLowersTheLevel : Obligations.LineFallLowersTheLevel := by
  intro s hsettled haccepted
  have hlow : (lineLow s).Settled := settled_lineLow hsettled
  refine ⟨lineLow s, ?next, rfl, fun hport arg hrefused => ?release, fun hline => ⟨_, exec_frzRise hlow, ?rise⟩⟩
  case next => rw [exec_frzFall hsettled, acceptFrz_fall haccepted]
  case release =>
    have hready : (lineLow s).portReady := hport
    rw [exec_release arg hready hlow, releaseAction_status_of_level_low rfl] at hrefused
    have hcode : [Status.ok.code] = [0x05#8] := answer_bytes (Host.Outcome.next.inj hrefused)
    exact absurd hcode (by decide)
  case rise =>
    rw [acceptFrz_rise_of_line (s := lineLow s) rfl hline]
    exact ⟨rfl, rfl⟩

end Sys2Proof.Laws
end

section
/-! What a step is made of. `Change` lists the pieces of a step, each one write of the state or one whole event that ends
with the waiting accesses judged anew, with the guard under which it comes; `chain_of_step` says once that every step is
a chain of them. A law that every piece keeps is kept by every step (`kept_of_step`). -/

namespace Sys2Proof.Laws

open Sys2Proof Sys2Proof.Machine

/-! ## The pieces -/

/-- One piece of a step. With `whole` clear it is one of a command's own pieces: no grant, no reset, and nothing taken
from the board or the queue of commands. -/
inductive Change (whole : Bool) : State → State → Prop
  /-- The fields that no law speaks of. -/
  | unlawed (s : State) (fsync : Filter) (overrun irqEnable : Bool) (freeCount : Nat) : Change whole s { s with
        fsync := fsync, overrun := overrun, irqEnable := irqEnable, freeCount := freeCount }
  /-- The levels and the commands to come. -/
  | inputs (s : State) (board : List BoardLevels) (pending : List Instr) (h : whole = true := by rfl) :
      Change whole s { s with board := board, pending := pending }
  /-- R140: the mark of an open decision, on a FREE M-port alone. -/
  | freed (s : State) (b : Bool) (h : b = true → s.mport = .free) : Change whole s { s with freed := b }
  /-- The management port moves in a way that keeps its law. -/
  | mgmt (s : State) (m : ManagementPort) (h : s.mgmt.Ok → m.Ok) : Change whole s { s with mgmt := m }
  /-- The Frame Timer moves in a way that keeps its law. -/
  | timer (s : State) (t : Timer) (h : s.timer.Ok → t.Ok) : Change whole s (s.setTimer t)
  /-- The FRZ filter and the Freeze Unit move in a way that keeps the Freeze Unit's law. -/
  | freeze (s : State) (f : Filter) (z : FreezeUnit)
      (h : s.FreezeOk → ({ s with frz := f, freeze := z } : State).FreezeOk) : Change whole s { s with frz := f, freeze := z }
  /-- R155: a block makes a record. -/
  | record (s : State) (e : Event) (h : e.kind ≠ .none) : Change whole s (s.record e)
  /-- R162: the oldest record is removed. -/
  | pop (s : State) (e : Event) (rest : List Event) (h : s.events = e :: rest) : Change whole s { s with events := rest }
  /-- R161: a write of EVMASK. -/
  | evmask (s : State) (v : Word) : Change whole s { s with evmask := v &&& kindPositions }
  /-- R87: a write of DEFLIM. -/
  | limit (s : State) (g : Fin 4) (n : BitVec 4) : Change whole s (s.setGroup g ((s.group g).setLimit n))
  /-- R175: a write of HOLDMAX. -/
  | holdMax (s : State) (n : BitVec 3) (h : n ≠ 0#3) : Change whole s { s with holdMax := n }
  /-- R3: a write of a descriptor. -/
  | descriptor (s : State) (w : Fin 8) (d : Descriptor) (h : (s.window w).enable = .disabled) :
      Change whole s (s.setWindow w { s.window w with desc := d })
  /-- R29: an IDLE handler judges the access it accepts. -/
  | judge (s : State) (x : Port) (a : Access) (h : s.phaseOf x = .idle) : Change whole s (s.judgeAccess x a)
  /-- R26: an IDLE handler refuses an access that fails the form test. -/
  | misformed (s : State) (x : Port) (a : Access) (h : s.phaseOf x = .idle) : Change whole s (s.refuseAccess x a)
  /-- R45: the hold of the P-port Handler times out. -/
  | timeOut (s : State) (a : Access) (w : Fin 8) (p : Fin 512) (h : s.pPort.phase = .held a .sealed w p) :
      Change whole s ((s.clearHold .p).refuseAccess .p a)
  /-- R136: the grant that is due. -/
  | grant (s : State) (q : Requester) (h : s.decision = some q) (hw : whole = true := by rfl) : Change whole s (s.grantTo q).rejudge
  /-- R140: the memory answers. -/
  | response (s : State) (q : Requester) (m : Access) (r : BusResp) (d : List Word) (h : s.mport = .busy q m) :
      Change whole s ((({ s with mport := .free } : State).holderStep q r d).flipAfter q).rejudge
  /-- R80: a boundary is delivered. -/
  | deliver (s : State) : Change whole s s.deliver
  /-- R18: ENABLE. -/
  | enable (s : State) (w : Fin 8) (h : (s.window w).enable = .disabled) (hok : s.enableOk w = true) :
      Change whole s (s.putInService w).rejudge
  /-- R19: DISABLE with a page in flight. -/
  | drain (s : State) (w : Fin 8) (h : (s.window w).enable = .enabled) (hf : s.inFlight w = true) :
      Change whole s (s.leaveService w .draining).rejudge
  /-- R20: DISABLE with no page in flight. -/
  | disable (s : State) (w : Fin 8) (h : (s.window w).enable = .enabled) (hf : s.inFlight w = false) :
      Change whole s ((s.leaveService w .disabled).record { kind := .windowDisabled, window := some w }).rejudge
  /-- R22: RESYNC. -/
  | resync (s : State) (w : Fin 8) (h : (s.window w).enable = .enabled) : Change whole s (s.returnBroken w).rejudge
  /-- R98: DISARM. -/
  | disarm (s : State) (w : Fin 8) (h : (s.window w).enable = .enabled) : Change whole s (s.disarmed w).rejudge
  | engineReset (s : State) (h : whole = true := by rfl) : Change whole s s.engineReset
  | hardReset (s : State) (h : whole = true := by rfl) : Change whole s s.hardReset

/-- One piece after the other. -/
abbrev Chain (whole : Bool) : State → State → Prop := Relation.ReflTransGen (Change whole)

variable {o : Bool}

theorem Chain.of_change {s t : State} (h : Change o s t) : Chain o s t := .single h

theorem chain_of_eq {s t : State} (h : t = s) : Chain o s t := h ▸ .refl

theorem chain_freed_clear (s : State) : Chain o s { s with freed := false } :=
  .single (.freed s false fun h => absurd h Bool.false_ne_true)

theorem chain_pending (s : State) (l : List Instr) : Chain true s { s with pending := l } :=
  .single (.inputs s s.board l)

theorem chain_record (s : State) {e : Event} (h : e.kind ≠ .none) : Chain o s (s.record e) := .single (.record s e h)

/-! ## Grants and responses -/

theorem chain_arbitrated (s : State) : Chain true s s.arbitrated := by
  cases h : s.decision with
  | none => exact chain_of_eq (arbitrated_none h)
  | some q => rw [arbitrated_some h]; exact .single (.grant s q h)

theorem chain_settled (s : State) : Chain true s s.settled := by
  unfold State.settled
  split
  · exact chain_freed_clear s
  · split
    · exact .refl
    · exact chain_arbitrated s

/-- R136: a decision is due on a FREE M-port alone. -/
theorem mport_free_of_decision {s : State} (h : s.decision.isSome = true) : s.mport = .free := by
  cases hm : s.mport with
  | free => rfl
  | busy q a => rw [decision_busy hm] at h; cases h

theorem chain_openDecision (s : State) : Chain o s s.openDecision := .single (.freed s _ mport_free_of_decision)

theorem response_free {s : State} (r : BusResp) (d : List Word) (h : s.mport = .free) : s.response r d = s := by
  unfold State.response; rw [h]

theorem response_busy {s : State} {q : Requester} {m : Access} (r : BusResp) (d : List Word) (h : s.mport = .busy q m) :
    s.response r d = ((({ s with mport := .free } : State).holderStep q r d).flipAfter q).rejudge.openDecision := by
  unfold State.response; rw [h]

theorem chain_response (s : State) (r : BusResp) (d : List Word) : Chain o s (s.response r d) := by
  cases h : s.mport with
  | free => exact chain_of_eq (response_free r d h)
  | busy q m =>
    rw [response_busy r d h]
    exact (Chain.of_change (.response s q m r d h)).trans (chain_openDecision _)

/-! ## Boundaries and ticks -/

/-- R69: the timer's part of a boundary keeps its law. -/
theorem timerOk_begin {t : Timer} (h : t.Ok) (sync : SyncState) : (t.begin sync).Ok where
  counter := Nat.lt_of_lt_of_le (by decide : 0 < 16) h.period.2
  period := ⟨h.period.2, h.period.2⟩
  cutoff := h.nextCutoff
  nextCutoff := h.nextCutoff
  minimum := ⟨h.minimum.2, h.minimum.2⟩
  divisor := h.divisor
  divider := h.divider
  prescaler := Nat.lt_of_le_of_lt (Nat.zero_le _) h.prescaler
  off := fun _ => ⟨rfl, rfl, rfl, rfl⟩
  strobe := Nat.le_refl 4

theorem chain_recordFrame (s : State) : Chain o s s.recordFrame := by
  unfold State.recordFrame
  split
  · exact chain_record s nofun
  · exact .refl

theorem chain_boundaryWith (s : State) (sync : SyncState) {mark : Option EventKind} (h : mark ≠ some .none) :
    Chain o s (s.boundaryWith sync mark) := by
  have hbegin : Chain o s (s.setTimer (s.timer.begin sync)) := .single (.timer s _ fun ok => timerOk_begin ok sync)
  have hdeliver : ∀ u : State, Chain o u u.recordFrame.deliver := fun u =>
    (chain_recordFrame u).tail (.deliver _)
  unfold State.boundaryWith
  cases mark with
  | none => exact hbegin.trans (hdeliver _)
  | some k =>
    have hkind : k ≠ .none := fun e => h (congrArg some e)
    exact (hbegin.trans (chain_record _ hkind)).trans (hdeliver _)

theorem chain_plainBoundary (s : State) : Chain o s s.plainBoundary := chain_boundaryWith s _ (by decide)

theorem chain_synthesized (s : State) : Chain o s s.synthesized := by
  unfold State.synthesized
  split
  · exact chain_boundaryWith s _ (by decide)
  · exact chain_boundaryWith s _ (by decide)
  · exact chain_boundaryWith s _ (by decide)

/-- R67: a tick that does not end the period keeps the timer's law. -/
theorem timerOk_tick {t : Timer} (h : t.Ok) (hmode : t.mode ≠ .off) (hdue : t.periodDue = false) :
    ({ t with counter := t.counter + 1#24, prescale := 0 } : Timer).Ok := by
  have hlt : t.counter.toNat + 1 < t.fper.toNat := by simpa [Timer.periodDue] using hdue
  have hadd : (t.counter + 1#24).toNat = t.counter.toNat + 1 := by
    rw [BitVec.toNat_add]
    exact Nat.mod_eq_of_lt (Nat.lt_of_lt_of_le hlt (Nat.le_of_lt t.fper.isLt))
  exact { h with
    counter := by show (t.counter + 1#24).toNat < _; rw [hadd]; exact hlt
    prescaler := Nat.lt_of_le_of_lt (Nat.zero_le _) h.prescaler
    off := fun e => absurd e hmode }

theorem chain_tick {s : State} (hmode : s.timer.mode ≠ .off) (hdue : s.timer.periodDue = false) :
    Chain o s (s.setTimer { s.timer with counter := s.timer.counter + 1#24, prescale := 0 }) :=
  .single (.timer s _ fun ok => timerOk_tick ok hmode hdue)

theorem chain_tickOnce (s : State) : Chain o s s.tickOnce := by
  unfold State.tickOnce
  split
  · exact .refl
  next hmode =>
    split
    · exact chain_plainBoundary s
    next hdue => exact chain_tick (by rw [hmode]; decide) (by simpa using hdue)
  next hmode =>
    split
    · exact chain_synthesized s
    next hdue => exact chain_tick (by rw [hmode]; decide) (by simpa using hdue)

theorem chain_internalEnd (s : State) : Chain o s s.internalEnd := by
  unfold State.internalEnd
  split
  · exact .refl
  · split
    · exact chain_plainBoundary s
    · exact .refl
  · exact .refl

theorem chain_externalEnd (s : State) : Chain o s s.externalEnd := by
  unfold State.externalEnd
  split
  · exact .refl
  · exact .refl
  · split
    · exact chain_synthesized s
    · exact .refl

theorem chain_timerEdge (s : State) : Chain o s s.timerEdge := by
  unfold State.timerEdge
  split
  · exact .refl
  · exact .refl
  · split
    · exact chain_record s nofun
    · split
      · exact chain_boundaryWith s _ (by decide)
      · exact chain_boundaryWith s _ (by decide)
      · exact chain_boundaryWith s _ (by decide)

/-! ## The filtered inputs -/

theorem chain_fsync (s : State) (f : Filter) : Chain o s { s with fsync := f } :=
  .single (.unlawed s f s.overrun s.irqEnable s.freeCount)

theorem chain_acceptFsync (s : State) (level : Bool) : Chain o s (s.acceptFsync level) := by
  have hfilter : Chain o s _ := chain_fsync s { pin := level, accepted := level, run := 0 }
  unfold State.acceptFsync
  dsimp only
  split
  · exact hfilter.trans (chain_timerEdge _)
  · exact hfilter

/-- R77: the filter's pin and run count are of no law. -/
theorem freezeOk_filter {s : State} (f : Filter) (h : s.FreezeOk) (ha : f.accepted = s.frz.accepted) :
    ({ s with frz := f } : State).FreezeOk :=
  ⟨h.latch, h.level.trans ha.symm, h.line⟩

theorem chain_frz (s : State) (f : Filter) (ha : f.accepted = s.frz.accepted) : Chain o s { s with frz := f } :=
  .single (.freeze s f s.freeze fun ok => freezeOk_filter f ok ha)

theorem chain_acceptFrz (s : State) (level : Bool) : Chain o s (s.acceptFrz level) := by
  unfold State.acceptFrz
  dsimp only
  split
  next hsame => exact chain_frz s _ (by simpa using hsame)
  · split
    next hlevel =>
      have hrise : Chain o s { s with
          frz := { pin := level, accepted := level, run := 0 }
          freeze := { s.freeze with level := true, line := true, latch := true } } :=
        .single (.freeze s _ _ fun _ => ⟨rfl, hlevel.symm, fun _ => rfl⟩)
      unfold State.lineRise
      dsimp only
      split
      · exact hrise
      · exact hrise.trans (chain_record _ nofun)
    next hlevel =>
      exact .single (.freeze s _ { s.freeze with level := false } fun ok =>
        ⟨ok.latch, by simpa using hlevel, fun e => absurd e Bool.false_ne_true⟩)

theorem sample_accepted (f : Filter) : f.sample.accepted = f.accepted := by
  unfold Filter.sample
  split
  · rfl
  · split <;> rfl

/-! ## The serial lines -/

/-- A port with no transaction open. -/
theorem mgmtOk_quiet {f : PortFraming} (b : Bool) :
    ({ framing := f, out := [], msck := b } : ManagementPort).Ok :=
  ⟨Nat.zero_lt_succ 7, fun _ => rfl, fun _ => ⟨rfl, rfl⟩, fun _ => ⟨rfl, rfl⟩⟩

theorem mgmtOk_select {m : ManagementPort} (h : m.Ok) (mcsn : Bool) : (m.select mcsn).Ok := by
  unfold ManagementPort.select
  split
  · exact mgmtOk_quiet _
  · split
    · exact mgmtOk_quiet _
    · exact h
    · exact h
    · exact h

theorem mgmtOk_rise {m : ManagementPort} (h : m.Ok) (msi : Bool) : (m.rise msi).Ok := by
  unfold ManagementPort.rise
  split
  · exact h
  next hf =>
    have hne : m.framing ≠ .answered := by rw [hf]; decide
    have hdriven : ¬(m.framing = .ready ∨ m.framing = .ignoring) := by rw [hf]; decide
    split
    · exact ⟨Nat.zero_lt_succ 7, fun e => absurd hf e, fun _ => h.returned hne, fun e => absurd e hdriven⟩
    next hbit =>
      exact ⟨Nat.succ_lt_succ (Nat.lt_of_not_le hbit), fun e => absurd hf e,
        fun _ => h.returned hne, fun e => absurd e hdriven⟩
  next hf =>
    have hne : m.framing ≠ .opened := by rw [hf]; decide
    have hdriven : ¬(m.framing = .ready ∨ m.framing = .ignoring) := by rw [hf]; decide
    split
    · exact ⟨Nat.zero_lt_succ 7, fun _ => h.received hne, fun e => absurd hf e, fun e => absurd e hdriven⟩
    next hbit =>
      exact ⟨Nat.succ_lt_succ (Nat.lt_of_not_le hbit), fun _ => h.received hne,
        fun e => absurd hf e, fun e => absurd e hdriven⟩
  · exact h

theorem mgmtOk_fall {m : ManagementPort} (h : m.Ok) : m.fall.Ok := by
  unfold ManagementPort.fall
  split
  · exact h
  next hf => exact ⟨h.bit, h.received, h.returned, fun e => absurd e (by dsimp only; rw [hf]; decide)⟩
  next hf => exact ⟨h.bit, h.received, h.returned, fun e => absurd e (by dsimp only; rw [hf]; decide)⟩
  · exact h

theorem mgmtOk_clock {m : ManagementPort} (h : m.Ok) (msck msi : Bool) : (m.clock msck msi).Ok := by
  have hlevel : ({ m with msck := msck } : ManagementPort).Ok := ⟨h.bit, h.received, h.returned, h.undriven⟩
  unfold ManagementPort.clock
  dsimp only
  split
  · exact mgmtOk_rise hlevel msi
  · split
    · exact mgmtOk_fall hlevel
    · exact hlevel

theorem mgmtOk_executed (out : List Byte) (n : Nat) : (ManagementPort.executed out n).Ok :=
  ⟨Nat.zero_lt_succ 7, fun _ => rfl, fun h => absurd rfl h, fun h => by rcases h with h | h <;> cases h⟩

theorem mgmtOk_samplePort {s : State} (h : s.mgmt.Ok) (l : BoardLevels) : (s.samplePort l).mgmt.Ok := by
  have hselect : ∀ u : State, u.mgmt.Ok → (u.selectThenClock l).mgmt.Ok := fun u hu =>
    mgmtOk_clock (mgmtOk_select hu _) _ _
  have hclock : ∀ u : State, u.mgmt.Ok → (u.clockThenSelect l).mgmt.Ok := fun u hu => by
    unfold State.clockThenSelect
    split
    · exact mgmtOk_clock hu _ _
    · exact mgmtOk_select (mgmtOk_clock hu _ _) _
  unfold State.samplePort
  dsimp only
  split
  · split
    · exact hselect _ h
    · exact hclock _ h
  · exact hselect _ h

theorem chain_samplePort (s : State) (l : BoardLevels) : Chain true s (s.samplePort l) := by
  rw [samplePort_eq]
  have hport : Chain true s { s with mgmt := (s.samplePort l).mgmt } := .single (.mgmt s _ fun ok => mgmtOk_samplePort ok l)
  exact (hport.tail (.unlawed _ s.fsync s.overrun s.irqEnable _)).tail (.inputs _ s.board _)

theorem chain_drive (s : State) : Chain true s s.drive := by
  unfold State.drive
  split
  · exact .refl
  next l rest _ =>
    have hfsync : Chain true s { s with board := rest, fsync := { s.fsync with pin := l.fsync } } :=
      (Chain.of_change (.inputs s rest s.pending)).trans (chain_fsync _ _)
    exact (hfsync.trans (chain_frz _ { s.frz with pin := l.frz } rfl)).trans (chain_samplePort _ l)

/-! ## One BCLK period -/

/-- R66: a count of the prescaler below its divisor keeps the timer's law. -/
theorem timerOk_prescale {t : Timer} (h : t.Ok) (hmode : t.mode ≠ .off) (hlt : t.prescale + 1 < t.fpre.toNat) :
    ({ t with prescale := t.prescale + 1 } : Timer).Ok :=
  { h with prescaler := hlt, off := fun e => absurd e hmode }

theorem timerOk_strobe {t : Timer} (h : t.Ok) {n : Nat} (hn : n ≤ t.strobe) : ({ t with strobe := n } : Timer).Ok :=
  { h with strobe := Nat.le_trans hn h.strobe }

theorem chain_prescale (s : State) : Chain o s s.prescale := by
  have hcount : s.timer.mode ≠ .off → ¬s.timer.fpre.toNat ≤ s.timer.prescale + 1 →
      Chain o s (s.setTimer { s.timer with prescale := s.timer.prescale + 1 }) := fun hmode hlt =>
    .single (.timer s _ fun ok => timerOk_prescale ok hmode (Nat.lt_of_not_le hlt))
  unfold State.prescale
  split
  · exact .refl
  next hmode =>
    split
    · exact chain_tickOnce s
    next hlt => exact hcount (by rw [hmode]; decide) hlt
  next hmode =>
    split
    · exact chain_tickOnce s
    next hlt => exact hcount (by rw [hmode]; decide) hlt

theorem chain_clockEvent (s : State) (e : ClockEvent) : Chain true s (s.clockEvent e) := by
  cases e with
  | frz => exact (chain_arbitrated s).trans (chain_acceptFrz _ _)
  | fsync => exact (chain_arbitrated s).trans (chain_acceptFsync _ _)
  | prescaler => exact (chain_arbitrated s).trans (chain_prescale _)

theorem chain_clockEvents (es : List ClockEvent) (s : State) : Chain true s (es.foldl State.clockEvent s) := by
  induction es generalizing s with
  | nil => exact .refl
  | cons e es ih => exact (chain_clockEvent s e).trans (ih _)

theorem chain_period (s : State) : Chain true s s.period := by
  have hbegun : Chain true s { s with
      timer := { s.timer with strobe := s.timer.strobe - 1 }, fsync := s.fsync.sample, frz := s.frz.sample } := by
    have hstrobe : Chain true s (s.setTimer { s.timer with strobe := s.timer.strobe - 1 }) :=
      .single (.timer s _ fun ok => timerOk_strobe ok (Nat.sub_le _ _))
    exact (hstrobe.trans (chain_fsync _ s.fsync.sample)).trans (chain_frz _ s.frz.sample (sample_accepted _))
  unfold State.period
  dsimp only
  split
  · exact (hbegun.tail (.unlawed _ s.fsync.sample s.overrun s.irqEnable (s.freeCount + 1))).trans
      (chain_clockEvents _ _)
  · exact hbegun.trans (chain_prescale _)

theorem chain_bclk (s : State) : Chain true s s.bclk :=
  ((chain_settled s).trans (chain_drive _)).trans (chain_period _)

/-! ## Accesses and hold timeouts -/

theorem chain_present (s : State) (x : Port) (a : Access) : Chain o s (s.present x a) := by
  unfold State.present State.accept
  split
  next hidle =>
    split
    · exact .single (.judge s x a hidle)
    · exact (Chain.of_change (.misformed s x a hidle)).trans (chain_record _ nofun)
  · exact .refl

theorem chain_holdTimeout (s : State) : Chain o s s.holdTimeout := by
  unfold State.holdTimeout
  split
  next a w p hheld =>
    split
    · exact (Chain.of_change (.timeOut s a w p hheld)).trans (chain_record _ nofun)
    · exact .refl
  · exact .refl

/-! ## Transactions -/

theorem chain_transactAt {s : State} (n : Nat) {body : State → State × List Byte} (h : Chain o s (body s).1) :
    Chain o s (s.transactAt n body) := by
  by_cases hport : s.portReady
  · rw [transactAt_ready n s body hport]
    exact h.tail (.mgmt _ _ fun _ => mgmtOk_executed _ _)
  · exact chain_of_eq (transactAt_unready n s body hport)

theorem chain_transactStatus {s : State} {body : State → State × Status} (h : Chain o s (body s).1) :
    Chain o s (s.transactStatus body) := chain_transactAt (body := fun t => ((body t).1, [(body t).2.code])) 0 h

theorem chain_pop (s : State) : Chain o s s.pop.1 := by
  unfold State.pop
  split
  · exact .refl
  next e rest he => exact .single (.pop s e rest he)

theorem chain_idlePort (s : State) : Chain o s { s with mgmt := s.mgmt.idle } :=
  .single (.mgmt s _ fun _ => mgmtOk_quiet _)

/-! ## Register writes -/

theorem chain_writeDescriptor (s : State) (w k : Fin 8) (v : Word) : Chain o s (s.writeDescriptor w k v).1 := by
  unfold State.writeDescriptor
  split
  next hdisabled => exact .single (.descriptor s w _ hdisabled)
  · exact .refl
  · exact .refl

theorem chain_writeDevstat (s : State) (v : Word) : Chain o s (s.writeDevstat v).1 :=
  .single (.unlawed s s.fsync _ s.irqEnable s.freeCount)

theorem chain_writeDevctl (s : State) (v : Word) : Chain o s (s.writeDevctl v).1 := by
  unfold State.writeDevctl
  split
  · exact .refl
  next hmax =>
    exact (Chain.of_change (.unlawed s s.fsync s.overrun (v.getLsbD 0) s.freeCount)).tail
      (.holdMax _ _ hmax)

theorem chain_writeEvmask (s : State) (v : Word) : Chain o s (s.writeEvmask v).1 := .single (.evmask s v)

/-- R72: a write of FMODE keeps the timer's law. -/
theorem timerOk_setMode {t : Timer} (h : t.Ok) (m : TimerMode) : (t.setMode m).Ok := by
  have hcounter : 0 < t.fper.toNat := Nat.lt_of_lt_of_le (by decide) h.period.1
  have hpre : 0 < t.fpre.toNat := Nat.lt_of_le_of_lt (Nat.zero_le _) h.prescaler
  cases m with
  | off =>
    exact {
      counter := Nat.lt_of_lt_of_le (by decide : 0 < 16) h.period.2
      period := ⟨h.period.2, h.period.2⟩
      cutoff := h.nextCutoff
      nextCutoff := h.nextCutoff
      minimum := ⟨h.minimum.2, h.minimum.2⟩
      divisor := h.divisor
      divider := h.divider
      prescaler := hpre
      off := fun _ => ⟨rfl, rfl, rfl, rfl⟩
      strobe := h.strobe }
  | internal => exact { h with counter := hcounter, prescaler := hpre, off := fun e => by cases e }
  | external => exact { h with counter := hcounter, prescaler := hpre, off := fun e => by cases e }

theorem chain_setTimer {s : State} {t : Timer} (h : s.timer.Ok → t.Ok) : Chain o s { s with timer := t } :=
  .single (.timer s t h)

theorem chain_writeFmode (s : State) (v : Word) : Chain o s (s.writeFmode v).1 := by
  unfold State.writeFmode
  dsimp only
  split
  · exact chain_setTimer fun ok => timerOk_setMode ok _
  · split
    · exact chain_setTimer fun ok => timerOk_setMode ok _
    · split
      · exact chain_setTimer fun ok => timerOk_setMode ok _
      · exact .refl

/-- R66: the four divisors. -/
theorem timerOk_fpre {t : Timer} (h : t.Ok) {v : Word} (hv : [1#32, 4#32, 16#32, 64#32].contains v = true) :
    ({ t with fpre := v.setWidth 7, prescale := 0 } : Timer).Ok := by
  have hcases : v = 1#32 ∨ v = 4#32 ∨ v = 16#32 ∨ v = 64#32 := by simpa using hv
  have hdivisor : v.setWidth 7 ∈ [1#7, 4#7, 16#7, 64#7] ∧ 0 < (v.setWidth 7).toNat := by
    rcases hcases with rfl | rfl | rfl | rfl <;> decide
  exact { h with
    divisor := hdivisor.1
    prescaler := hdivisor.2
    off := fun e => let ⟨hc, _, hp, hq⟩ := h.off e; ⟨hc, rfl, hp, hq⟩ }

theorem chain_writeFpre (s : State) (v : Word) : Chain o s (s.writeFpre v).1 := by
  unfold State.writeFpre
  split
  next hv => exact chain_setTimer fun ok => timerOk_fpre ok hv
  · exact .refl

/-- R71: the four values of FNDIV. -/
theorem timerOk_fndiv {t : Timer} (h : t.Ok) {v : Word} (hv : [1#32, 2#32, 4#32, 8#32].contains v = true) :
    ({ t with fndiv := v.setWidth 4 } : Timer).Ok := by
  have hcases : v = 1#32 ∨ v = 2#32 ∨ v = 4#32 ∨ v = 8#32 := by simpa using hv
  have hdivider : v.setWidth 4 ∈ [1#4, 2#4, 4#4, 8#4] := by
    rcases hcases with rfl | rfl | rfl | rfl <;> decide
  exact { h with divider := hdivider }

theorem chain_writeFndiv (s : State) (v : Word) : Chain o s (s.writeFndiv v).1 := by
  unfold State.writeFndiv
  split
  next hv => exact chain_setTimer fun ok => timerOk_fndiv ok hv
  · exact .refl

/-- A word that fits 24 bits keeps its value in a field of that width. -/
theorem toNat_setWidth24 {v : Word} (h : v.toNat ≤ 16777215) : (v.setWidth 24).toNat = v.toNat := by
  rw [BitVec.toNat_setWidth]
  exact Nat.mod_eq_of_lt (by omega)

/-- R68: what the test of an FPER says. -/
theorem fperOk_iff (t : Timer) (v : Word) : t.fperOk v = true ↔
    16 ≤ v.toNat ∧ v.toNat ≤ 16777215 ∧ (t.nextFcut.toNat = 0 ∨ t.nextFcut.toNat < v.toNat) ∧ t.fmin.toNat < v.toNat := by
  have hzero : t.nextFcut = 0#24 ↔ t.nextFcut.toNat = 0 := ⟨fun h => by rw [h]; rfl, fun h => BitVec.eq_of_toNat_eq h⟩
  simp [Timer.fperOk, hzero, and_assoc]

/-- R68: what the test of an FCUT says. -/
theorem fcutOk_iff (t : Timer) (v : Word) : t.fcutOk v = true ↔ v.toNat = 0 ∨ v.toNat < t.nextFper.toNat := by
  have hzero : v = 0#32 ↔ v.toNat = 0 := ⟨fun h => by rw [h]; rfl, fun h => BitVec.eq_of_toNat_eq h⟩
  simp [Timer.fcutOk, hzero]

theorem cutoff_of_toNat {c : BitVec 24} {n : Nat} (h : c.toNat = 0 ∨ c.toNat < n) : c = 0#24 ∨ c.toNat < n :=
  h.imp_left fun e => BitVec.eq_of_toNat_eq e

theorem timerOk_fper {t : Timer} (h : t.Ok) {v : Word} (hv : t.fperOk v = true) (hmode : t.mode = .off) :
    ({ t with fper := v.setWidth 24 } : Timer).Ok := by
  obtain ⟨hmin, hmax, hcut, hfmin⟩ := (fperOk_iff t v).1 hv
  obtain ⟨hcounter, hprescale, hfper, hfcut⟩ := h.off hmode
  have hval := toNat_setWidth24 hmax
  have hnextFcut : t.nextFcut = t.fcut := by rw [Timer.nextFcut, hfcut]; rfl
  have hnext : ({ t with fper := v.setWidth 24 } : Timer).nextFper = v.setWidth 24 := by
    show t.pendFper.getD _ = _; rw [hfper]; rfl
  rw [hnextFcut] at hcut
  constructor
  · show t.counter.toNat < (v.setWidth 24).toNat
    rw [hcounter, hval]; exact Nat.lt_of_lt_of_le (by decide) hmin
  · rw [hnext]; exact ⟨hval ▸ hmin, hval ▸ hmin⟩
  · show t.fcut = 0#24 ∨ t.fcut.toNat < (v.setWidth 24).toNat
    rw [hval]; exact cutoff_of_toNat hcut
  · rw [hnext, hval]
    show t.nextFcut = 0#24 ∨ t.nextFcut.toNat < _
    rw [hnextFcut]; exact cutoff_of_toNat hcut
  · rw [hnext]
    show t.fmin.toNat < (v.setWidth 24).toNat ∧ _
    rw [hval]; exact ⟨hfmin, hfmin⟩
  · exact h.divisor
  · exact h.divider
  · exact h.prescaler
  · exact h.off
  · exact h.strobe

theorem timerOk_pendFper {t : Timer} (h : t.Ok) {v : Word} (hv : t.fperOk v = true) (hmode : t.mode ≠ .off) :
    ({ t with pendFper := some (v.setWidth 24) } : Timer).Ok := by
  obtain ⟨hmin, hmax, hcut, hfmin⟩ := (fperOk_iff t v).1 hv
  have hval := toNat_setWidth24 hmax
  exact { h with
    period := ⟨h.period.1, hval.symm ▸ hmin⟩
    nextCutoff := cutoff_of_toNat (hval.symm ▸ hcut)
    minimum := ⟨h.minimum.1, hval.symm ▸ hfmin⟩
    off := fun e => absurd e hmode }

theorem chain_writeFper (s : State) (v : Word) : Chain o s (s.writeFper v).1 := by
  unfold State.writeFper
  split
  next hv =>
    split
    next hmode => exact chain_setTimer fun ok => timerOk_fper ok hv hmode
    next hmode => exact chain_setTimer fun ok => timerOk_pendFper ok hv (by rw [hmode]; decide)
    next hmode => exact chain_setTimer fun ok => timerOk_pendFper ok hv (by rw [hmode]; decide)
  · exact .refl

/-- R68: an FCUT that passes its test fits its field, and is below the FPER that will apply. -/
theorem fcut_value {t : Timer} {v : Word} (hv : t.fcutOk v = true) :
    (v.setWidth 24).toNat = 0 ∨ (v.setWidth 24).toNat < t.nextFper.toNat := by
  rcases (fcutOk_iff t v).1 hv with h | h
  · left; rw [toNat_setWidth24 (by omega), h]
  · right; rw [toNat_setWidth24 (by have := t.nextFper.isLt; omega)]; exact h

theorem timerOk_fcut {t : Timer} (h : t.Ok) {v : Word} (hv : t.fcutOk v = true) (hmode : t.mode = .off) :
    ({ t with fcut := v.setWidth 24 } : Timer).Ok := by
  obtain ⟨_, _, hfper, hfcut⟩ := h.off hmode
  have hval := cutoff_of_toNat (fcut_value hv)
  have hnext : t.nextFper = t.fper := by rw [Timer.nextFper, hfper]; rfl
  have hcut : ({ t with fcut := v.setWidth 24 } : Timer).nextFcut = v.setWidth 24 := by
    show t.pendFcut.getD _ = _; rw [hfcut]; rfl
  exact { h with
    cutoff := hnext ▸ hval
    nextCutoff := by rw [hcut]; exact hval }

theorem timerOk_pendFcut {t : Timer} (h : t.Ok) {v : Word} (hv : t.fcutOk v = true) (hmode : t.mode ≠ .off) :
    ({ t with pendFcut := some (v.setWidth 24) } : Timer).Ok :=
  { h with
    nextCutoff := cutoff_of_toNat (fcut_value hv)
    off := fun e => absurd e hmode }

theorem chain_writeFcut (s : State) (v : Word) : Chain o s (s.writeFcut v).1 := by
  unfold State.writeFcut
  split
  next hv =>
    split
    next hmode => exact chain_setTimer fun ok => timerOk_fcut ok hv hmode
    next hmode => exact chain_setTimer fun ok => timerOk_pendFcut ok hv (by rw [hmode]; decide)
    next hmode => exact chain_setTimer fun ok => timerOk_pendFcut ok hv (by rw [hmode]; decide)
  · exact .refl

/-- R70: an FMIN below both values of FPER keeps the timer's law. -/
theorem timerOk_fmin {t : Timer} (h : t.Ok) {v : Word} (hv : v.toNat < t.fper.toNat ∧ v.toNat < t.nextFper.toNat) :
    ({ t with fmin := v.setWidth 24 } : Timer).Ok := by
  have hval : (v.setWidth 24).toNat = v.toNat := toNat_setWidth24 (by have := t.fper.isLt; omega)
  exact { h with minimum := ⟨hval.symm ▸ hv.1, hval.symm ▸ hv.2⟩ }

theorem chain_writeFmin (s : State) (v : Word) : Chain o s (s.writeFmin v).1 := by
  unfold State.writeFmin
  split
  next hv => exact chain_setTimer fun ok => timerOk_fmin ok hv
  · exact .refl

theorem chain_writeDeflim (s : State) (g : Fin 4) (v : Word) : Chain o s (s.writeDeflim g v).1 := by
  unfold State.writeDeflim
  split
  · exact .single (.limit s g _)
  · exact .refl

theorem chain_writeRegister (s : State) (number : BitVec 16) (v : Word) : Chain o s (s.writeRegister number v).1 := by
  unfold State.writeRegister
  split
  case h_9 => exact chain_writeDevstat s v
  case h_10 => exact chain_writeDevctl s v
  case h_11 => exact chain_writeEvmask s v
  case h_12 => exact chain_writeFmode s v
  case h_13 => exact chain_writeFpre s v
  case h_14 => exact chain_writeFper s v
  case h_15 => exact chain_writeFcut s v
  case h_16 => exact chain_writeFmin s v
  case h_17 => exact chain_writeFndiv s v
  case h_18 => exact chain_writeDeflim s _ v
  case h_19 => exact chain_writeDescriptor s _ _ v
  all_goals exact .refl

/-! ## Actions -/

theorem chain_enableWindow (s : State) (w : Fin 8) : Chain o s (s.enableWindow w).1 := by
  unfold State.enableWindow
  split
  · exact .refl
  · exact .refl
  next hdisabled =>
    split
    next hok => exact .single (.enable s w hdisabled hok)
    · exact .refl

theorem chain_disableWindow (s : State) (w : Fin 8) : Chain o s (s.disableWindow w).1 := by
  unfold State.disableWindow
  split
  · exact .refl
  · exact .refl
  next henabled =>
    split
    next hflight => exact .single (.drain s w henabled hflight)
    next hflight => exact .single (.disable s w henabled (by simpa using hflight))

theorem chain_resyncWindow (s : State) (w : Fin 8) : Chain o s (s.resyncWindow w).1 := by
  unfold State.resyncWindow
  split
  · exact .refl
  · exact .refl
  next henabled => exact .single (.resync s w henabled)

theorem chain_disarmWindow (s : State) (w : Fin 8) : Chain o s (s.disarmWindow w).1 := by
  unfold State.disarmWindow
  split
  · exact .refl
  · exact .refl
  next henabled =>
    split
    · exact .single (.disarm s w henabled)
    · exact .refl

theorem chain_windowAction {s : State} (arg : Byte) {act : State → Fin 8 → State × Status}
    (h : ∀ w, Chain o s (act s w).1) : Chain o s (s.windowAction arg act).1 := by
  unfold State.windowAction
  split
  · exact h _
  · exact .refl

theorem chain_freezeAction (s : State) : Chain o s s.freezeAction.1 := by
  have hset : Chain o s { s with freeze := { s.freeze with command := true, latch := true } } :=
    .single (.freeze s s.frz _ fun ok => ⟨(Bool.or_true _).symm, ok.level, ok.line⟩)
  unfold State.freezeAction
  dsimp only
  split
  · exact .refl
  · exact hset.trans (chain_record _ nofun)

theorem chain_releaseAction (s : State) : Chain o s s.releaseAction.1 := by
  unfold State.releaseAction
  split
  · split
    · exact .refl
    next hlevel =>
      have hclear : Chain o s { s with freeze := { s.freeze with latch := false, line := false, command := false } } :=
        .single (.freeze s s.frz _ fun ok => ⟨rfl, ok.level, fun e => absurd e hlevel⟩)
      exact hclear.trans (chain_record _ nofun)
  · exact .refl

/-! ## Every step -/

/-- An event acts on the settled state. -/
theorem chain_of_event {s t : State} {f : State → State} (hf : ∀ u, Chain o u (f u)) (h : s.event f = .next t) :
    Chain o s.settled t := by
  cases h
  exact hf _

/-- R170, R177: a code that names nothing is answered BAD_COMMAND; one that names something is no event (log 2). -/
theorem chain_ifKnown (known : List Byte) (code : Byte) (s : State) :
    Chain o s (if known.contains code then s else s.transactStatus fun t => (t, .badCommand)) := by
  split
  · exact .refl
  · exact chain_transactStatus .refl

/-- The commands that neither grant, nor answer for the memory, nor reset. -/
def ordinary : Instr → Bool
  | .grant => false
  | .memoryResponse _ _ => false
  | .hardReset => false
  | .engineReset _ => false
  | _ => true

/-- An ordinary command is a chain of its own pieces from the settled state. -/
theorem chain_of_ordinary {c : Instr} {s t : State} (hc : ordinary c = true) (h : exec c s = .next t) :
    Chain o s.settled t := by
  cases c with
  | grant => cases hc
  | memoryResponse r d => cases hc
  | hardReset => cases hc
  | engineReset arg => cases hc
  | accessAccepted x a => exact chain_of_event (fun u => chain_present u x a) h
  | tick => exact chain_of_event chain_tickOnce h
  | periodEnd => exact chain_of_event chain_internalEnd h
  | synthesizedBoundary => exact chain_of_event chain_externalEnd h
  | fsyncEdge => exact chain_of_event (fun u => chain_acceptFsync u true) h
  | holdTimeout => exact chain_of_event chain_holdTimeout h
  | fstbPulseEnd => exact chain_of_event (fun u => chain_setTimer fun ok => timerOk_strobe ok (Nat.zero_le _)) h
  | frzRise => exact chain_of_event (fun u => chain_acceptFrz u true) h
  | frzFall => exact chain_of_event (fun u => chain_acceptFrz u false) h
  | readReg n => exact chain_of_event (fun u => chain_transactAt 0 .refl) h
  | writeReg n v => exact chain_of_event (fun u => chain_transactStatus (chain_writeRegister u n v)) h
  | descriptorWrite w k v => exact chain_of_event (fun u => chain_transactStatus (chain_writeDescriptor u w k v)) h
  | devstatWrite v => exact chain_of_event (fun u => chain_transactStatus (chain_writeDevstat u v)) h
  | devctlWrite v => exact chain_of_event (fun u => chain_transactStatus (chain_writeDevctl u v)) h
  | evmaskWrite v => exact chain_of_event (fun u => chain_transactStatus (chain_writeEvmask u v)) h
  | fmodeWrite v => exact chain_of_event (fun u => chain_transactStatus (chain_writeFmode u v)) h
  | fpreWrite v => exact chain_of_event (fun u => chain_transactStatus (chain_writeFpre u v)) h
  | fperWrite v => exact chain_of_event (fun u => chain_transactStatus (chain_writeFper u v)) h
  | fcutWrite v => exact chain_of_event (fun u => chain_transactStatus (chain_writeFcut u v)) h
  | fminWrite v => exact chain_of_event (fun u => chain_transactStatus (chain_writeFmin u v)) h
  | fndivWrite v => exact chain_of_event (fun u => chain_transactStatus (chain_writeFndiv u v)) h
  | deflimWrite g v => exact chain_of_event (fun u => chain_transactStatus (chain_writeDeflim u g v)) h
  | popEvent => exact chain_of_event (fun u => chain_transactAt 1 (chain_pop u)) h
  | badCommand code => exact chain_of_event (fun u => chain_ifKnown commandBytes code u) h
  | unknownAction code arg => exact chain_of_event (fun u => chain_ifKnown actionCodes code u) h
  | transactionCutShort bs => exact chain_of_event chain_idlePort h
  | enable arg => exact chain_of_event (fun u => chain_transactStatus (chain_windowAction arg (chain_enableWindow u))) h
  | disable arg => exact chain_of_event (fun u => chain_transactStatus (chain_windowAction arg (chain_disableWindow u))) h
  | disarm arg => exact chain_of_event (fun u => chain_transactStatus (chain_windowAction arg (chain_disarmWindow u))) h
  | resync arg => exact chain_of_event (fun u => chain_transactStatus (chain_windowAction arg (chain_resyncWindow u))) h
  | boundary arg => exact chain_of_event (fun u => chain_transactStatus (chain_plainBoundary u)) h
  | freeze arg => exact chain_of_event (fun u => chain_transactStatus (chain_freezeAction u)) h
  | release arg => exact chain_of_event (fun u => chain_transactStatus (chain_releaseAction u)) h
  | fsyncFall => exact chain_of_event (fun u => chain_acceptFsync u false) h
  | mcsnRisingEdge => exact chain_of_event chain_idlePort h

/-- Every command is a chain of changes. -/
theorem chain_of_exec {c : Instr} {s t : State} (h : exec c s = .next t) : Chain true s t := by
  have hother : ordinary c = true → Chain true s t := fun hc => (chain_settled s).trans (chain_of_ordinary hc h)
  cases c with
  | grant => cases h; exact chain_arbitrated s
  | memoryResponse r d => cases h; exact (chain_arbitrated s).trans (chain_response _ r d)
  | hardReset => exact (chain_settled s).trans (chain_of_event (fun u => .single (.hardReset u)) h)
  | engineReset arg =>
    exact (chain_settled s).trans (chain_of_event (fun u => chain_transactStatus (.single (.engineReset u))) h)
  | _ => exact hother rfl

/-- Every step is a chain of changes. -/
theorem chain_of_step {s t : State} (h : step s = .next t) : Chain true s t := by
  unfold step at h
  split at h
  · split at h
    · cases h; exact chain_arbitrated s
    · cases h; exact chain_bclk s
  next c rest _ => exact (chain_pending s rest).trans (chain_of_exec h)

/-- What every piece keeps, every step keeps. -/
theorem kept_of_step {P : State → Prop} (hP : ∀ {u v : State}, P u → Change true u v → P v) {s t : State} (hs : P s)
    (h : step s = .next t) : P t := by
  have hchain : Chain true s t := chain_of_step h
  clear h
  induction hchain with
  | refl => exact hs
  | tail _ hchange ih => exact hP ih hchange

end Sys2Proof.Laws
end

section
/-! The Event Queue (R154, R155, R161), the Freeze Unit (R144), the deferral counts (R86), the management port (R168,
R179) and the Frame Timer (R66 to R71): every piece of a step keeps their laws. -/

namespace Sys2Proof.Laws

open Sys2Proof Sys2Proof.Machine

/-! ## The Event Queue -/

/-- The law of the Event Queue speaks of the records and the mask alone. -/
theorem eventsOk_of_eq {s t : State} (h : s.EventsOk) (he : t.events = s.events := by rfl)
    (hm : t.evmask = s.evmask := by rfl) : t.EventsOk :=
  ⟨by rw [he]; exact h.bounded, by rw [hm]; exact h.mask, by rw [he]; exact h.named⟩

/-- R155: a record of a named kind keeps the law. -/
theorem eventsOk_record {s : State} (h : s.EventsOk) {e : Event} (hkind : e.kind ≠ .none := by nofun) :
    (s.record e).EventsOk := by
  rcases arrive_events s { e with frame := s.timer.frame } with hsame | ⟨hlt, hmore⟩
  · exact eventsOk_of_eq h hsame (record_evmask s e)
  · have hevents : (s.record e).events = s.events ++ [{ e with frame := s.timer.frame }] := hmore
    refine ⟨?_, by rw [record_evmask]; exact h.mask, fun k hk => ?_⟩
    · rw [hevents, List.length_append]; exact hlt
    · rw [hevents, List.mem_append, List.mem_singleton] at hk
      rcases hk with hk | rfl
      · exact h.named k hk
      · exact hkind

theorem eventsOk_foldl {α : Type} {f : State → α → State} (hf : ∀ s a, s.EventsOk → (f s a).EventsOk) (l : List α)
    {s : State} (h : s.EventsOk) : (l.foldl f s).EventsOk := by
  induction l generalizing s with
  | nil => exact h
  | cons a l ih => exact ih (hf s a h)

theorem eventsOk_setPort {s : State} (h : s.EventsOk) (x : Port) (v : PortState) : (s.setPort x v).EventsOk :=
  eventsOk_of_eq h (setPort_events s x v) (setPort_evmask s x v)

theorem eventsOk_clearHold {s : State} (h : s.EventsOk) (x : Port) : (s.clearHold x).EventsOk := by
  cases x <;> exact eventsOk_of_eq h

theorem eventsOk_promote {s : State} (h : s.EventsOk) (p : Fin 512) : (s.promote p).EventsOk := by
  rw [promote_eq]; exact eventsOk_of_eq h

/-- R34, R36, R38, R43: what a judgement answers with is a record of a named kind. -/
theorem judge_refuse_named {s : State} {x : Port} {a : Access} {e : Event} (h : s.judge x a = .refuse e) :
    e.kind ≠ .none := by
  have hwrite : ∀ w p, s.judgeWrite w p a = .refuse e → e.kind ≠ .none := fun w p hj => by
    unfold State.judgeWrite State.served at hj
    split at hj <;> cases hj
    nofun
  have hproducer : ∀ w p, s.judgeProducerWrite w p a = .refuse e → e.kind ≠ .none := fun w p hj => by
    unfold State.judgeProducerWrite at hj
    split at hj
    · split at hj
      · exact hwrite w p hj
      · cases hj
      · cases hj; nofun
    · exact hwrite w p hj
  unfold State.judge at h
  split at h
  · cases h
  next w _ =>
    unfold State.judgeView State.served at h
    split at h
    · cases h
    · cases h; nofun
    · cases h
    · exact hproducer _ _ h
  · split at h <;> cases h
    nofun
  · cases h

theorem eventsOk_noteMerge {s : State} (h : s.EventsOk) (x : Port) (a : Access) : (s.noteMerge x a).EventsOk := by
  unfold State.noteMerge
  split
  · exact eventsOk_record (eventsOk_of_eq h)
  · exact h

theorem eventsOk_takeJudgement {s : State} (h : s.EventsOk) (x : Port) (a : Access) {j : Judgement}
    (hj : ∀ e, j = .refuse e → e.kind ≠ .none) : (s.takeJudgement x a j).EventsOk := by
  cases j with
  | go r => exact eventsOk_setPort (eventsOk_clearHold h x) x _
  | hold why w p =>
    cases why with
    | demand => exact eventsOk_promote (eventsOk_setPort (eventsOk_clearHold h x) x _) p
    | sealed =>
      show ((if s.sealedHold then s else s.clearHold x).setPhase x _).EventsOk
      split
      · exact eventsOk_setPort h x _
      · exact eventsOk_setPort (eventsOk_clearHold h x) x _
  | refuse e => exact eventsOk_record (eventsOk_setPort (eventsOk_clearHold h x) x _) (hj e rfl)

theorem eventsOk_judgeAccess {s : State} (h : s.EventsOk) (x : Port) (a : Access) : (s.judgeAccess x a).EventsOk :=
  eventsOk_takeJudgement (eventsOk_noteMerge h x a) x a fun _ hj => judge_refuse_named hj

theorem eventsOk_settle {s : State} (h : s.EventsOk) (x : Port) : (s.settle x).EventsOk := by
  unfold State.settle
  split
  · exact h
  · exact eventsOk_judgeAccess h x _
  · exact eventsOk_judgeAccess h x _
  · exact h

theorem eventsOk_rejudge {s : State} (h : s.EventsOk) : s.rejudge.EventsOk := by
  have hcount : ∀ n, ({ s with freeCount := n } : State).EventsOk := fun n => eventsOk_of_eq h
  rcases rejudge_cases s with ⟨n, hr⟩ | ⟨n, hr⟩ <;> rw [hr]
  · exact eventsOk_settle (eventsOk_settle (hcount n) _) _
  · exact eventsOk_settle (eventsOk_settle (hcount n) _) _

theorem eventsOk_flip {s : State} (h : s.EventsOk) (f : TakenCommit) : (s.flip f).EventsOk := by
  have hflipped := eventsOk_foldl (f := State.flipWindow) (fun _ _ hu => eventsOk_of_eq hu)
    (f.set.filter s.enabled) h
  exact eventsOk_foldl (fun _ _ hu => eventsOk_record hu) _ hflipped

theorem eventsOk_takeCommit {s : State} (h : s.EventsOk) (g : Fin 4) (o : Origin) : (s.takeCommit g o).EventsOk := by
  have hidle : (s.groupIdle g).EventsOk := eventsOk_of_eq h
  unfold State.takeCommit
  dsimp only
  split
  · exact eventsOk_of_eq hidle
  · exact eventsOk_flip hidle _

theorem eventsOk_applyOutcome {s : State} (h : s.EventsOk) (g : Fin 4) (o : GroupOutcome) :
    (s.applyOutcome g o).EventsOk := by
  cases o with
  | nothing => exact h
  | endDeferral => exact eventsOk_of_eq h
  | skip => exact eventsOk_record h
  | commit => exact eventsOk_takeCommit h g _
  | defer => exact eventsOk_record (eventsOk_of_eq h)
  | force =>
    have hrevoked := eventsOk_foldl (f := State.revoke) (fun _ _ hu => eventsOk_of_eq hu) (s.openMembers g) h
    exact eventsOk_takeCommit (eventsOk_record hrevoked) g _

theorem eventsOk_judgeGroups {s : State} (h : s.EventsOk) : s.judgeGroups.EventsOk :=
  eventsOk_of_eq (eventsOk_foldl (fun _ g hu => eventsOk_applyOutcome hu g (s.groupOutcome g)) allGroups h) rfl rfl

theorem eventsOk_timeOut {s : State} (h : s.EventsOk) (a : Access) (w : Fin 8) (p : Fin 512) :
    (s.timeOut a w p).EventsOk :=
  eventsOk_record (eventsOk_setPort (eventsOk_clearHold h .p) .p _)

theorem eventsOk_deliver {s : State} (h : s.EventsOk) : s.deliver.EventsOk := by
  refine eventsOk_rejudge ?_
  unfold State.holdBoundary
  have hjudged := eventsOk_judgeGroups h
  split
  · split
    · exact hjudged
    · split
      · exact eventsOk_timeOut hjudged _ _ _
      · exact eventsOk_of_eq hjudged
  · exact hjudged

theorem eventsOk_judgeClose {s : State} (h : s.EventsOk) (g : Fin 4) : (s.judgeClose g).EventsOk := by
  unfold State.judgeClose
  split
  · exact h
  · split
    · exact eventsOk_of_eq h
    · split
      · exact h
      · split
        · exact h
        · exact eventsOk_takeCommit h g _

theorem eventsOk_takeMarker {s : State} (h : s.EventsOk) (a : Access) (w : Fin 8) (m : Marker) :
    (s.takeMarker a w m).EventsOk := by
  cases m with
  | commit =>
    show (s.commitMarker w _).EventsOk
    unfold State.commitMarker
    dsimp only
    split
    · split
      · exact eventsOk_record (eventsOk_of_eq h)
      · exact eventsOk_of_eq h
    · exact eventsOk_of_eq h
    · exact eventsOk_of_eq h
  | leaseOpen =>
    show (s.leaseOpen w).EventsOk
    unfold State.leaseOpen
    split
    · exact eventsOk_of_eq h
    · exact eventsOk_of_eq h
    · exact eventsOk_record h
  | leaseClose =>
    show (s.leaseClose w).EventsOk
    unfold State.leaseClose
    split
    · exact eventsOk_judgeClose (eventsOk_of_eq h) _
    · exact eventsOk_of_eq h
    · exact eventsOk_record h

theorem eventsOk_grantPort {s : State} (h : s.EventsOk) (x : Port) (q : Requester) : (s.grantPort x q).EventsOk := by
  unfold State.grantPort
  split
  next a r _ =>
    have hissued : ((s.setPhase x (.issued a r)).issue q { a with addr := r.addr }).EventsOk :=
      eventsOk_of_eq (eventsOk_setPort h x { phase := .issued a r, resp := none }) rfl rfl
    unfold State.grantEffect
    split
    · exact eventsOk_takeMarker hissued _ _ _
    · exact hissued
    · exact hissued
    · exact hissued
  · exact h

theorem eventsOk_grantEngine {s : State} (h : s.EventsOk) : s.grantEngine.EventsOk := by
  unfold State.grantEngine State.startCopy
  split
  · split
    · exact h
    · exact eventsOk_of_eq h
  · exact eventsOk_of_eq h
  · exact eventsOk_of_eq h

theorem eventsOk_grantTo {s : State} (h : s.EventsOk) (q : Requester) : (s.grantTo q).EventsOk := by
  have hnoted : (s.noteGrant q).EventsOk := by cases q <;> exact eventsOk_of_eq h
  cases q with
  | consumer => exact eventsOk_grantPort hnoted _ _
  | producer => exact eventsOk_grantPort hnoted _ _
  | copy => exact eventsOk_of_eq (eventsOk_grantEngine hnoted) rfl rfl

theorem eventsOk_checkReady {s : State} (h : s.EventsOk) (w : Fin 8) : (s.checkReady w).EventsOk := by
  unfold State.checkReady
  split
  · exact eventsOk_record (eventsOk_of_eq h)
  · exact h

theorem eventsOk_endDrain {s : State} (h : s.EventsOk) (w : Fin 8) (p : Fin 512) : (s.endDrain w p).EventsOk :=
  eventsOk_record (eventsOk_of_eq h)

theorem eventsOk_copyEndsWell {s : State} (h : s.EventsOk) (p : Fin 512) : (s.copyEndsWell p).EventsOk := by
  have hidle : s.engineIdle.EventsOk := eventsOk_of_eq h
  unfold State.copyEndsWell
  dsimp only
  split
  · exact eventsOk_checkReady (eventsOk_of_eq hidle) _
  · exact eventsOk_endDrain hidle _ _
  · exact hidle

theorem eventsOk_attemptFailed {s : State} (h : s.EventsOk) (w : Fin 8) (p : Fin 512) :
    (s.attemptFailed w p).EventsOk := by
  unfold State.attemptFailed
  dsimp only
  split
  · exact eventsOk_record (eventsOk_of_eq h)
  · exact eventsOk_record (eventsOk_of_eq h)

theorem eventsOk_copyFails {s : State} (h : s.EventsOk) (p : Fin 512) : (s.copyFails p).EventsOk := by
  have hidle : s.engineIdle.EventsOk := eventsOk_of_eq h
  unfold State.copyFails
  dsimp only
  split
  · exact eventsOk_checkReady (eventsOk_attemptFailed (eventsOk_record hidle) _ _) _
  · exact eventsOk_endDrain (eventsOk_record hidle) _ _
  · exact eventsOk_record hidle

theorem eventsOk_copyResponse {s : State} (h : s.EventsOk) (r : BusResp) (d : List Word) :
    (s.copyResponse r d).EventsOk := by
  unfold State.copyResponse
  split
  · exact h
  · split
    · unfold State.copyOkay
      dsimp only
      split
      · exact h
      · exact eventsOk_of_eq h
      · split
        · exact eventsOk_of_eq h
        · exact eventsOk_copyEndsWell h _
    · exact eventsOk_copyFails h _

theorem memoryErrorOf_named {x : Port} {c : AccessClass} {e : Event} (h : memoryErrorOf x c = some e) :
    e.kind ≠ .none := by
  unfold memoryErrorOf at h
  split at h <;> cases h <;> nofun

/-- R13: the ending of a write can change the Page Map alone. -/
theorem endWrite_eq (s : State) (x : Port) (a : Access) (c : AccessClass) :
    s.endWrite x a c = { s with pages := (s.endWrite x a c).pages } := by
  unfold State.endWrite State.markDirty
  repeat' split
  all_goals rfl

theorem eventsOk_endAccess {s : State} (h : s.EventsOk) (x : Port) (r : BusResp) (d : List Word) :
    (s.endAccess x r d).EventsOk := by
  unfold State.endAccess
  split
  next a res _ =>
    have hresponded : (s.respond x r (readBeats a d)).EventsOk := eventsOk_setPort h x _
    dsimp only
    split
    · rw [endWrite_eq]; exact eventsOk_of_eq hresponded
    · split
      next e he => exact eventsOk_record hresponded (memoryErrorOf_named he)
      · exact hresponded
  · exact h

theorem eventsOk_holderStep {s : State} (h : s.EventsOk) (q : Requester) (r : BusResp) (d : List Word) :
    (s.holderStep q r d).EventsOk := by
  cases q with
  | consumer => exact eventsOk_endAccess h .c r d
  | producer => exact eventsOk_endAccess h .p r d
  | copy => exact eventsOk_copyResponse h r d

theorem eventsOk_flipAfter {s : State} (h : s.EventsOk) (q : Requester) : (s.flipAfter q).EventsOk := by
  unfold State.flipAfter
  split
  · exact eventsOk_flip (eventsOk_of_eq h) _
  · exact eventsOk_flip (eventsOk_of_eq h) _
  · exact h
  · exact h

/-- R161: what a write of EVMASK leaves holds enables of named kinds alone. -/
theorem and_kindPositions_idem (v : Word) : v &&& kindPositions &&& kindPositions = v &&& kindPositions := by
  rw [BitVec.and_assoc, BitVec.and_self]

theorem eventsOk_change {o : Bool} {s t : State} (h : s.EventsOk) (c : Change o s t) : t.EventsOk := by
  cases c with
  | unlawed => exact eventsOk_of_eq h
  | inputs => exact eventsOk_of_eq h
  | freed => exact eventsOk_of_eq h
  | mgmt => exact eventsOk_of_eq h
  | timer => exact eventsOk_of_eq h
  | freeze => exact eventsOk_of_eq h
  | record e hkind => exact eventsOk_record h hkind
  | pop e rest he =>
    refine ⟨?_, h.mask, fun k hk => h.named k (he ▸ List.mem_cons_of_mem e hk)⟩
    have hlen : s.events.length ≤ 32 := h.bounded
    rw [he, List.length_cons] at hlen
    exact Nat.le_of_succ_le hlen
  | evmask v => exact ⟨h.bounded, and_kindPositions_idem v, h.named⟩
  | limit => exact eventsOk_of_eq h
  | holdMax => exact eventsOk_of_eq h
  | descriptor => exact eventsOk_of_eq h
  | judge x a => exact eventsOk_judgeAccess h x a
  | misformed x a => exact eventsOk_setPort h x _
  | timeOut a => exact eventsOk_setPort (eventsOk_clearHold h .p) .p _
  | grant q => exact eventsOk_rejudge (eventsOk_grantTo h q)
  | response q m r d =>
    exact eventsOk_rejudge (eventsOk_flipAfter (eventsOk_holderStep (eventsOk_of_eq h) q r d) q)
  | deliver => exact eventsOk_deliver h
  | enable => exact eventsOk_rejudge (eventsOk_of_eq h)
  | drain => exact eventsOk_rejudge (eventsOk_of_eq h)
  | disable => exact eventsOk_rejudge (eventsOk_record (eventsOk_of_eq h))
  | resync => exact eventsOk_rejudge (eventsOk_of_eq h)
  | disarm w =>
    refine eventsOk_rejudge ?_
    unfold State.disarmed
    dsimp only
    split
    · exact eventsOk_of_eq h
    · exact eventsOk_of_eq h
  | engineReset =>
    refine eventsOk_rejudge ⟨Nat.zero_le 32, ?_, fun e he => absurd he List.not_mem_nil⟩
    have hmask : s.dropHeld.evmask = s.evmask := by unfold State.dropHeld; split <;> rfl
    show s.dropHeld.evmask &&& kindPositions = s.dropHeld.evmask
    rw [hmask]; exact h.mask
  | hardReset =>
    have hmask : 0x00FFFFFE#32 &&& kindPositions = 0x00FFFFFE#32 := by decide
    exact ⟨Nat.zero_le 32, hmask, fun e he => absurd he List.not_mem_nil⟩

/-! ## What the whole events leave alone -/

/-- The two states agree in the fields that the Freeze Unit, the management port and the Frame Timer speak of. -/
structure ControlSame (s t : State) : Prop where
  frz : t.frz = s.frz
  freeze : t.freeze = s.freeze
  mgmt : t.mgmt = s.mgmt
  timer : t.timer = s.timer

/-- The two states agree in the arbiter's memory of its grants, and in the levels and commands to come. -/
structure ScheduleSame (s t : State) : Prop where
  streak : t.streak = s.streak
  pointer : t.pointer = s.pointer
  board : t.board = s.board
  pending : t.pending = s.pending

/-- The two states agree in both. -/
structure OutsideSame (s t : State) : Prop extends ControlSame s t, ScheduleSame s t

theorem ControlSame.trans {s t u : State} (h : ControlSame s t) (k : ControlSame t u) : ControlSame s u :=
  ⟨k.frz.trans h.frz, k.freeze.trans h.freeze, k.mgmt.trans h.mgmt, k.timer.trans h.timer⟩

theorem ScheduleSame.refl (s : State) : ScheduleSame s s := ⟨rfl, rfl, rfl, rfl⟩

theorem ScheduleSame.trans {s t u : State} (h : ScheduleSame s t) (k : ScheduleSame t u) : ScheduleSame s u :=
  ⟨k.streak.trans h.streak, k.pointer.trans h.pointer, k.board.trans h.board, k.pending.trans h.pending⟩

theorem OutsideSame.trans {s t u : State} (h : OutsideSame s t) (k : OutsideSame t u) : OutsideSame s u :=
  ⟨h.toControlSame.trans k.toControlSame, h.toScheduleSame.trans k.toScheduleSame⟩

/-- What follows a write of other fields. -/
theorem OutsideSame.written {s t u : State} (k : OutsideSame t u)
    (h : OutsideSame s t := by exact ⟨⟨rfl, rfl, rfl, rfl⟩, rfl, rfl, rfl, rfl⟩) : OutsideSame s u := h.trans k

theorem OutsideSame.refl (s : State) : OutsideSame s s := ⟨⟨rfl, rfl, rfl, rfl⟩, rfl, rfl, rfl, rfl⟩

theorem outsideSame_record (s : State) (e : Event) : OutsideSame s (s.record e) := ⟨by constructor <;> simp, by constructor <;> simp⟩

theorem outsideSame_rejudge (s : State) : OutsideSame s s.rejudge := ⟨by constructor <;> simp, by constructor <;> simp⟩

theorem outsideSame_of_portsOnly {s t : State} (h : PortsOnly s t) : OutsideSame s t :=
  ⟨⟨h.frz, h.freeze, h.mgmt, h.timer⟩, h.streak, h.pointer, h.board, h.pending⟩

theorem outsideSame_of_commitOnly {s t : State} (h : CommitOnly s t) : OutsideSame s t :=
  ⟨⟨h.frz, h.freeze, h.mgmt, h.timer⟩, h.streak, h.pointer, h.board, h.pending⟩

theorem outsideSame_checkReady (s : State) (w : Fin 8) : OutsideSame s (s.checkReady w) := by
  unfold State.checkReady
  split
  · exact (outsideSame_record _ _).written
  · exact OutsideSame.refl s

theorem outsideSame_endDrain (s : State) (w : Fin 8) (p : Fin 512) : OutsideSame s (s.endDrain w p) :=
  (outsideSame_record _ _).written

theorem outsideSame_copyEndsWell (s : State) (p : Fin 512) : OutsideSame s (s.copyEndsWell p) := by
  have hidle : OutsideSame s s.engineIdle := ⟨⟨rfl, rfl, rfl, rfl⟩, rfl, rfl, rfl, rfl⟩
  unfold State.copyEndsWell
  dsimp only
  split
  · exact hidle.trans (outsideSame_checkReady _ _).written
  · exact hidle.trans (outsideSame_endDrain _ _ _)
  · exact hidle

theorem outsideSame_attemptFailed (s : State) (w : Fin 8) (p : Fin 512) : OutsideSame s (s.attemptFailed w p) := by
  unfold State.attemptFailed
  dsimp only
  split
  · exact (outsideSame_record _ _).written
  · exact (outsideSame_record _ _).written

theorem outsideSame_copyFails (s : State) (p : Fin 512) : OutsideSame s (s.copyFails p) := by
  have hnoted : ∀ e, OutsideSame s (s.engineIdle.record e) := fun e =>
    (outsideSame_record _ e).written
  unfold State.copyFails
  dsimp only
  split
  · exact ((hnoted _).trans (outsideSame_attemptFailed _ _ _)).trans (outsideSame_checkReady _ _)
  · exact (hnoted _).trans (outsideSame_endDrain _ _ _)
  · exact hnoted _

theorem outsideSame_copyResponse (s : State) (r : BusResp) (d : List Word) : OutsideSame s (s.copyResponse r d) := by
  unfold State.copyResponse
  split
  · exact OutsideSame.refl s
  · split
    · unfold State.copyOkay
      dsimp only
      split
      · exact OutsideSame.refl s
      · exact ⟨⟨rfl, rfl, rfl, rfl⟩, rfl, rfl, rfl, rfl⟩
      · split
        · exact ⟨⟨rfl, rfl, rfl, rfl⟩, rfl, rfl, rfl, rfl⟩
        · exact outsideSame_copyEndsWell _ _
    · exact outsideSame_copyFails _ _

theorem outsideSame_endAccess (s : State) (x : Port) (r : BusResp) (d : List Word) :
    OutsideSame s (s.endAccess x r d) := by
  unfold State.endAccess
  split
  next a res _ =>
    have hresponded : OutsideSame s (s.respond x r (readBeats a d)) :=
      outsideSame_of_portsOnly (portsOnly_setPort s x _)
    dsimp only
    split
    · rw [endWrite_eq]; exact hresponded.trans ⟨⟨rfl, rfl, rfl, rfl⟩, rfl, rfl, rfl, rfl⟩
    · split
      · exact hresponded.trans (outsideSame_record _ _)
      · exact hresponded
  · exact OutsideSame.refl s

theorem outsideSame_holderStep (s : State) (q : Requester) (r : BusResp) (d : List Word) :
    OutsideSame s (s.holderStep q r d) := by
  cases q with
  | consumer => exact outsideSame_endAccess s .c r d
  | producer => exact outsideSame_endAccess s .p r d
  | copy => exact outsideSame_copyResponse s r d

theorem outsideSame_flipAfter (s : State) (q : Requester) : OutsideSame s (s.flipAfter q) := by
  have hflip : ∀ f, OutsideSame s (({ s with pendingFlip := none } : State).flip f) := fun f =>
    (outsideSame_of_commitOnly (commitOnly_flip _ f)).written
  unfold State.flipAfter
  split
  · exact hflip _
  · exact hflip _
  · exact OutsideSame.refl s
  · exact OutsideSame.refl s

theorem outsideSame_response (s : State) (q : Requester) (r : BusResp) (d : List Word) :
    OutsideSame s ((({ s with mport := .free } : State).holderStep q r d).flipAfter q).rejudge :=
  ((outsideSame_holderStep _ q r d).written.trans (outsideSame_flipAfter _ q)).trans
    (outsideSame_rejudge _)

theorem outsideSame_deliver (s : State) : OutsideSame s s.deliver := ⟨by constructor <;> simp, by constructor <;> simp⟩

theorem outsideSame_disarmed (s : State) (w : Fin 8) : OutsideSame s (s.disarmed w) := by
  unfold State.disarmed
  dsimp only
  split <;> exact ⟨⟨rfl, rfl, rfl, rfl⟩, rfl, rfl, rfl, rfl⟩

theorem outsideSame_dropHeld (s : State) : OutsideSame s s.dropHeld := by
  unfold State.dropHeld
  split
  · exact outsideSame_of_portsOnly (portsOnly_setPort s .p _)
  · exact OutsideSame.refl s

/-- Every piece but the writes of these parts and the resets leaves them alone. -/
theorem controlSame_change {o : Bool} {s t : State} (c : Change o s t) :
    ControlSame s t ∨ (∃ m, (s.mgmt.Ok → m.Ok) ∧ t = { s with mgmt := m }) ∨
      (∃ u, (s.timer.Ok → u.Ok) ∧ t = s.setTimer u) ∨
      (∃ f z, (s.FreezeOk → ({ s with frz := f, freeze := z } : State).FreezeOk) ∧ t = { s with frz := f, freeze := z }) ∨
      t = s.engineReset ∨ t = s.hardReset := by
  cases c with
  | mgmt m h => exact .inr (.inl ⟨m, h, rfl⟩)
  | timer u h => exact .inr (.inr (.inl ⟨u, h, rfl⟩))
  | freeze f z h => exact .inr (.inr (.inr (.inl ⟨f, z, h, rfl⟩)))
  | engineReset => exact .inr (.inr (.inr (.inr (.inl rfl))))
  | hardReset => exact .inr (.inr (.inr (.inr (.inr rfl))))
  | unlawed => exact .inl ⟨rfl, rfl, rfl, rfl⟩
  | inputs => exact .inl ⟨rfl, rfl, rfl, rfl⟩
  | freed => exact .inl ⟨rfl, rfl, rfl, rfl⟩
  | record e => exact .inl (outsideSame_record s e).toControlSame
  | pop => exact .inl ⟨rfl, rfl, rfl, rfl⟩
  | evmask => exact .inl ⟨rfl, rfl, rfl, rfl⟩
  | limit => exact .inl ⟨rfl, rfl, rfl, rfl⟩
  | holdMax => exact .inl ⟨rfl, rfl, rfl, rfl⟩
  | descriptor => exact .inl ⟨rfl, rfl, rfl, rfl⟩
  | judge x a => exact .inl (outsideSame_of_portsOnly (portsOnly_judgeAccess s x a)).toControlSame
  | misformed x a => exact .inl (outsideSame_of_portsOnly (portsOnly_setPort s x _)).toControlSame
  | timeOut => exact .inl ⟨rfl, rfl, rfl, rfl⟩
  | grant q =>
    have hgrant := grantFrame_grantTo s q
    exact .inl (ControlSame.trans ⟨hgrant.frz, hgrant.freeze, hgrant.mgmt, hgrant.timer⟩
      (outsideSame_rejudge _).toControlSame)
  | response q m r d => exact .inl (outsideSame_response s q r d).toControlSame
  | deliver => exact .inl (outsideSame_deliver s).toControlSame
  | enable => exact .inl (outsideSame_rejudge _).written.toControlSame
  | drain => exact .inl (outsideSame_rejudge _).written.toControlSame
  | disable =>
    exact .inl ((outsideSame_record _ _).trans (outsideSame_rejudge _)).written.toControlSame
  | resync => exact .inl (outsideSame_rejudge _).written.toControlSame
  | disarm w => exact .inl ((outsideSame_disarmed s w).trans (outsideSame_rejudge _)).toControlSame

/-- R178: an engine reset leaves the inputs, the Freeze Unit and the management port alone. -/
theorem engineReset_control (s : State) : s.engineReset.frz = s.frz ∧ s.engineReset.freeze = s.freeze ∧
    s.engineReset.mgmt = s.mgmt ∧ s.engineReset.timer = s.timer.engineReset := by
  have hdrop := outsideSame_dropHeld s
  unfold State.engineReset
  simp only [rejudge_frz, rejudge_freeze, rejudge_mgmt, rejudge_timer, hdrop.frz, hdrop.freeze, hdrop.mgmt, hdrop.timer,
    and_self]

/-! ## The Freeze Unit, the management port and the timer -/

theorem freezeOk_of_eq {s t : State} (h : s.FreezeOk) (hf : t.frz = s.frz) (hz : t.freeze = s.freeze) : t.FreezeOk :=
  ⟨by rw [hz]; exact h.latch, by rw [hz, hf]; exact h.level, by rw [hz]; exact h.line⟩

theorem freezeOk_change {o : Bool} {s t : State} (h : s.FreezeOk) (c : Change o s t) : t.FreezeOk := by
  rcases controlSame_change c with k | ⟨m, -, rfl⟩ | ⟨u, -, rfl⟩ | ⟨f, z, hz, rfl⟩ | rfl | rfl
  · exact freezeOk_of_eq h k.frz k.freeze
  · exact freezeOk_of_eq h rfl rfl
  · exact freezeOk_of_eq h rfl rfl
  · exact hz h
  · obtain ⟨hfrz, hfreeze, -, -⟩ := engineReset_control s
    exact freezeOk_of_eq h hfrz hfreeze
  · exact ⟨rfl, rfl, fun e => absurd e Bool.false_ne_true⟩

theorem mgmtOk_hardReset {m : ManagementPort} : m.hardReset.Ok := mgmtOk_quiet m.msck

theorem mgmtOk_change {o : Bool} {s t : State} (h : s.mgmt.Ok) (c : Change o s t) : t.mgmt.Ok := by
  rcases controlSame_change c with k | ⟨m, hm, rfl⟩ | ⟨u, -, rfl⟩ | ⟨f, z, -, rfl⟩ | rfl | rfl
  · rw [k.mgmt]; exact h
  · exact hm h
  · exact h
  · exact h
  · obtain ⟨-, -, hmgmt, -⟩ := engineReset_control s
    rw [hmgmt]; exact h
  · exact mgmtOk_hardReset

theorem timerOk_engineReset {t : Timer} (h : t.Ok) : t.engineReset.Ok where
  counter := Nat.lt_of_lt_of_le (by decide : 0 < 16) h.period.1
  period := ⟨h.period.1, h.period.1⟩
  cutoff := h.cutoff
  nextCutoff := h.cutoff
  minimum := ⟨h.minimum.1, h.minimum.1⟩
  divisor := h.divisor
  divider := h.divider
  prescaler := Nat.lt_of_le_of_lt (Nat.zero_le _) h.prescaler
  off := fun _ => ⟨rfl, rfl, rfl, rfl⟩
  strobe := h.strobe

/-- R82: the timer's hard-reset values satisfy its law. -/
theorem timerOk_reset : Timer.reset.Ok := by
  constructor <;> decide

theorem timerOk_change {o : Bool} {s t : State} (h : s.timer.Ok) (c : Change o s t) : t.timer.Ok := by
  rcases controlSame_change c with k | ⟨m, -, rfl⟩ | ⟨u, hu, rfl⟩ | ⟨f, z, -, rfl⟩ | rfl | rfl
  · rw [k.timer]; exact h
  · exact h
  · exact hu h
  · exact h
  · obtain ⟨-, -, -, htimer⟩ := engineReset_control s
    rw [htimer]; exact timerOk_engineReset h
  · exact timerOk_reset

/-! ## The deferral counts -/

/-- R86: the law of one group. -/
def GroupOk (x : Group) : Prop := x.count.toNat ≤ x.limit.toNat ∧ (x.state = .idle → x.count = 0#4)

theorem groupOk_idle (x : Group) : GroupOk { x with state := .idle, count := 0#4 } := ⟨Nat.zero_le _, fun _ => rfl⟩

/-- R87: a lowered limit lowers the count with it. -/
theorem groupOk_setLimit {x : Group} (h : GroupOk x) (n : BitVec 4) : GroupOk (x.setLimit n) := by
  obtain ⟨hle, hidle⟩ := h
  unfold Group.setLimit
  constructor
  · dsimp only
    split
    · exact Nat.le_refl _
    next hn => exact Nat.le_of_not_lt hn
  · intro hstate
    have hzero : x.count = 0#4 := hidle hstate
    dsimp only
    rw [hzero]
    exact if_neg (Nat.not_lt_zero _)

theorem groupsOk_of_eq {s t : State} (h : s.GroupsOk) (he : t.groups = s.groups := by rfl) : t.GroupsOk := fun g => by
  rw [group_congr he g]; exact h g

theorem groupsOk_setGroup {s : State} (h : s.GroupsOk) (g : Fin 4) {x : Group} (hx : GroupOk x) :
    (s.setGroup g x).GroupsOk := fun k => by
  rw [group_setGroup]
  split
  · exact hx
  · exact h k

theorem groupsOk_rejudge {s : State} (h : s.GroupsOk) : s.rejudge.GroupsOk := groupsOk_of_eq h (rejudge_groups s)

/-- R88: a group is deferred only below its limit. -/
theorem count_lt_of_defer {s : State} {g : Fin 4} (h : s.groupOutcome g = .defer) :
    (s.group g).count.toNat < (s.group g).limit.toNat := by
  unfold State.groupOutcome at h
  split at h
  · split at h <;> cases h
  · split at h
    · cases h
    · split at h
      · cases h
      · split at h
        next hlt => exact hlt
        · cases h

theorem groupOk_defer {x : Group} (h : x.count.toNat < x.limit.toNat) :
    GroupOk { x with state := .deferred, count := x.count + 1#4 } := by
  refine ⟨?_, nofun⟩
  have hlimit : x.limit.toNat < 16 := x.limit.isLt
  show (x.count + 1#4).toNat ≤ x.limit.toNat
  rw [BitVec.toNat_add]
  exact Nat.le_trans (Nat.mod_le _ _) h

theorem groupOk_groupAfter {s : State} (h : s.GroupsOk) (g : Fin 4) : GroupOk (groupAfter s g) := by
  unfold groupAfter
  split
  · exact h g
  · exact h g
  · exact groupOk_idle _
  · exact groupOk_idle _
  · exact groupOk_idle _
  next hdefer => exact groupOk_defer (count_lt_of_defer hdefer)

theorem groupsOk_judgeGroups {s : State} (h : s.GroupsOk) : s.judgeGroups.GroupsOk := fun g => by
  rw [judgeGroups_group]; exact groupOk_groupAfter h g

/-- R100: a commit that is taken leaves its group IDLE with count 0. -/
theorem takeCommit_groups (s : State) (g : Fin 4) (o : Origin) : (s.takeCommit g o).groups = (s.groupIdle g).groups := by
  unfold State.takeCommit
  dsimp only
  split
  · rfl
  · exact flip_groups _ _

theorem groupsOk_judgeClose {s : State} (h : s.GroupsOk) (g : Fin 4) : (s.judgeClose g).GroupsOk := by
  have hidle : (s.groupIdle g).GroupsOk := groupsOk_setGroup h g (groupOk_idle _)
  unfold State.judgeClose
  split
  · exact h
  · split
    · exact hidle
    · split
      · exact h
      · split
        · exact h
        · exact groupsOk_of_eq hidle (takeCommit_groups s g .close)

theorem groupsOk_grantPort {s : State} (h : s.GroupsOk) (x : Port) (q : Requester) : (s.grantPort x q).GroupsOk := by
  unfold State.grantPort
  split
  next a r _ =>
    have hissued : ((s.setPhase x (.issued a r)).issue q { a with addr := r.addr }).GroupsOk :=
      groupsOk_of_eq h (setPort_groups s x _)
    unfold State.grantEffect
    split
    next w m _ =>
      cases m with
      | commit =>
        refine groupsOk_of_eq hissued ?_
        show (State.commitMarker _ w _).groups = _
        unfold State.commitMarker
        dsimp only
        split
        · split
          · exact record_groups _ _
          · rfl
        · rfl
        · rfl
      | leaseOpen =>
        refine groupsOk_of_eq hissued ?_
        show (State.leaseOpen _ w).groups = _
        unfold State.leaseOpen
        split
        · rfl
        · rfl
        · exact record_groups _ _
      | leaseClose =>
        show (State.leaseClose _ w).GroupsOk
        unfold State.leaseClose
        split
        · exact groupsOk_judgeClose (groupsOk_of_eq hissued) _
        · exact groupsOk_of_eq hissued
        · exact groupsOk_of_eq hissued (record_groups _ _)
    · exact hissued
    · exact hissued
    · exact hissued
  · exact h

theorem grantEngine_groups (s : State) : s.grantEngine.groups = s.groups := by
  unfold State.grantEngine State.startCopy
  split
  · split <;> rfl
  · rfl
  · rfl

theorem groupsOk_grantTo {s : State} (h : s.GroupsOk) (q : Requester) : (s.grantTo q).GroupsOk := by
  have hnoted : (s.noteGrant q).GroupsOk := by cases q <;> exact h
  cases q with
  | consumer => exact groupsOk_grantPort hnoted _ _
  | producer => exact groupsOk_grantPort hnoted _ _
  | copy => exact groupsOk_of_eq hnoted (grantEngine_groups _)

theorem checkReady_groups (s : State) (w : Fin 8) : (s.checkReady w).groups = s.groups := by
  unfold State.checkReady
  split
  · exact record_groups _ _
  · rfl

theorem attemptFailed_groups (s : State) (w : Fin 8) (p : Fin 512) : (s.attemptFailed w p).groups = s.groups := by
  unfold State.attemptFailed
  dsimp only
  split <;> exact record_groups _ _

theorem endDrain_groups (s : State) (w : Fin 8) (p : Fin 512) : (s.endDrain w p).groups = s.groups := record_groups _ _

theorem copyResponse_groups (s : State) (r : BusResp) (d : List Word) : (s.copyResponse r d).groups = s.groups := by
  unfold State.copyResponse
  split
  · rfl
  · split
    · unfold State.copyOkay
      dsimp only
      split
      · rfl
      · rfl
      · split
        · rfl
        · unfold State.copyEndsWell
          dsimp only
          split
          · exact checkReady_groups _ _
          · exact endDrain_groups _ _ _
          · rfl
    · unfold State.copyFails
      dsimp only
      split
      · rw [checkReady_groups, attemptFailed_groups]; exact record_groups _ _
      · rw [endDrain_groups]; exact record_groups _ _
      · exact record_groups _ _

theorem endAccess_groups (s : State) (x : Port) (r : BusResp) (d : List Word) :
    (s.endAccess x r d).groups = s.groups := by
  unfold State.endAccess
  split
  next a res _ =>
    have hresponded : (s.respond x r (readBeats a d)).groups = s.groups := setPort_groups s x _
    dsimp only
    split
    · rw [endWrite_eq]; exact hresponded
    · split
      · exact (record_groups _ _).trans hresponded
      · exact hresponded
  · rfl

theorem holderStep_groups (s : State) (q : Requester) (r : BusResp) (d : List Word) :
    (s.holderStep q r d).groups = s.groups := by
  cases q with
  | consumer => exact endAccess_groups s .c r d
  | producer => exact endAccess_groups s .p r d
  | copy => exact copyResponse_groups s r d

theorem flipAfter_groups (s : State) (q : Requester) : (s.flipAfter q).groups = s.groups := by
  unfold State.flipAfter
  split
  · exact flip_groups _ _
  · exact flip_groups _ _
  · rfl
  · rfl

theorem groupsOk_disarmed {s : State} (h : s.GroupsOk) (w : Fin 8) : (s.disarmed w).GroupsOk := by
  unfold State.disarmed
  dsimp only
  split
  · exact groupsOk_of_eq h
  · exact groupsOk_setGroup (s := s.setWindow w _) h _ (groupOk_idle _)

theorem groupsOk_change {o : Bool} {s t : State} (h : s.GroupsOk) (c : Change o s t) : t.GroupsOk := by
  cases c with
  | unlawed => exact h
  | inputs => exact h
  | freed => exact h
  | mgmt => exact h
  | timer => exact h
  | freeze => exact h
  | record e => exact groupsOk_of_eq h (record_groups s e)
  | pop => exact h
  | evmask => exact h
  | limit g n => exact groupsOk_setGroup h g (groupOk_setLimit (h g) n)
  | holdMax => exact h
  | descriptor => exact h
  | judge x a => exact groupsOk_of_eq h (portsOnly_judgeAccess s x a).groups
  | misformed x a => exact groupsOk_of_eq h (setPort_groups s x _)
  | timeOut => exact h
  | grant q => exact groupsOk_rejudge (groupsOk_grantTo h q)
  | response q m r d =>
    refine groupsOk_rejudge (groupsOk_of_eq h ?_)
    rw [flipAfter_groups, holderStep_groups]
  | deliver => exact groupsOk_of_eq (groupsOk_judgeGroups h) (deliver_groups s)
  | enable => exact groupsOk_rejudge (groupsOk_of_eq h)
  | drain => exact groupsOk_rejudge (groupsOk_of_eq h)
  | disable => exact groupsOk_rejudge (groupsOk_of_eq h (record_groups _ _))
  | resync => exact groupsOk_rejudge (groupsOk_of_eq h)
  | disarm w => exact groupsOk_rejudge (groupsOk_disarmed h w)
  | engineReset =>
    refine groupsOk_rejudge fun g => ?_
    show GroupOk (State.group _ g)
    unfold State.group
    simp only [vecMap_getElem]
    exact ⟨Nat.zero_le _, fun _ => rfl⟩
  | hardReset =>
    intro g
    rw [group_hardReset]
    exact ⟨Nat.zero_le _, fun _ => rfl⟩

/-! ## The two statements -/

/-- Settles O54: every piece of a step keeps each of the four laws. -/
theorem eventFreezeAndGroupLawsAreKept : Obligations.EventFreezeAndGroupLawsAreKept :=
  ⟨fun _ _ hs h => kept_of_step eventsOk_change hs h, fun _ _ hs h => kept_of_step freezeOk_change hs h,
    fun _ _ hs h => kept_of_step groupsOk_change hs h,
    fun _ _ hs h => kept_of_step (P := fun u => u.mgmt.Ok) mgmtOk_change hs h⟩

/-- Settles O55: every piece of a step keeps the law of the timer. -/
theorem timerLawsAreKept : Obligations.TimerLawsAreKept :=
  fun _ _ hs h => kept_of_step (P := fun u => u.timer.Ok) timerOk_change hs h

end Sys2Proof.Laws
end

section
/-! Where an access falls (R30, R50) and to which address it is resolved (R33). What `State.place` answers is said once,
item by item, in terms of the ENABLED windows alone. -/

namespace Sys2Proof.Laws

open Sys2Proof Sys2Proof.Machine

/-! ## Markers -/

theorem word_ne_next (a : BitVec 32) : a ≠ a + 4#32 := by
  intro h
  have hval := congrArg BitVec.toNat h
  rw [BitVec.toNat_add] at hval
  have hlt := a.isLt
  simp only [BitVec.toNat_ofNat] at hval
  omega

/-- R50: the markers of a window with this descriptor. -/
theorem markerOf_eq_some (x : Port) (a : Access) (d : Descriptor) (m : Marker) :
    markerOf x a d = some m ↔ isMarkerOf a x d m := by
  unfold markerOf isMarkerOf
  by_cases hform : a.blen = 0#2 ∧ a.size = 2#2
  · rw [if_pos hform]
    obtain ⟨hlen, hsize⟩ := hform
    by_cases hlma : a.addr = d.lma
    · cases x <;> cases hw : a.write <;> cases m <;> simp [hlen, hsize, hlma, word_ne_next d.lma]
    · cases x <;> cases hw : a.write <;> cases m <;> simp [hlen, hsize, hlma]
  · rw [if_neg hform]
    constructor
    · intro h; cases h
    · rintro ⟨hlen, hsize, -⟩; exact absurd ⟨hlen, hsize⟩ hform

/-! ## The three searches -/

/-- A search through the windows finds something exactly where one of them has it. -/
theorem findSome_allWindows_none {α : Type} (f : Fin 8 → Option α) :
    allWindows.findSome? f = none ↔ ∀ w, f w = none := by
  rw [List.findSome?_eq_none_iff]
  exact ⟨fun h w => h w (mem_allWindows w), fun h w _ => h w⟩

theorem findSome_allWindows_some {α : Type} {f : Fin 8 → Option α} {b : α} (h : allWindows.findSome? f = some b) :
    ∃ w, f w = some b := by
  obtain ⟨w, -, hw⟩ := List.exists_of_findSome?_eq_some h
  exact ⟨w, hw⟩

/-- R30 item 1: no ENABLED window has the access as a marker. -/
def NoMarker (s : State) (x : Port) (a : Access) : Prop :=
  ∀ v m, s.enabled v = true → ¬isMarkerOf a x (s.desc v) m

/-- R30 item 2: no view of an ENABLED window has the address. -/
def NoView (s : State) (a : Access) : Prop :=
  ∀ v, s.enabled v = true → (s.desc v).view.has a.addr.toNat = false

theorem markerPlace_none (s : State) (x : Port) (a : Access) : s.markerPlace x a = none ↔ NoMarker s x a := by
  unfold State.markerPlace NoMarker
  rw [findSome_allWindows_none]
  refine forall_congr' fun v => ?_
  by_cases hv : s.enabled v = true
  · rw [if_pos hv, Option.map_eq_none_iff, Option.eq_none_iff_forall_ne_some]
    exact forall_congr' fun m => ⟨fun h _ => (markerOf_eq_some x a _ m).not.1 h,
      fun h => (markerOf_eq_some x a _ m).not.2 (h hv)⟩
  · rw [if_neg hv]
    exact ⟨fun _ _ h => absurd h hv, fun _ => rfl⟩

theorem markerPlace_some {s : State} {x : Port} {a : Access} {p : Place} (h : s.markerPlace x a = some p) :
    ∃ w m, p = .marker w m ∧ s.enabled w = true ∧ isMarkerOf a x (s.desc w) m := by
  obtain ⟨w, hw⟩ := findSome_allWindows_some h
  by_cases hv : s.enabled w = true
  · rw [if_pos hv, Option.map_eq_some_iff] at hw
    obtain ⟨m, hm, hp⟩ := hw
    exact ⟨w, m, hp.symm, hv, (markerOf_eq_some x a _ m).1 hm⟩
  · rw [if_neg hv] at hw; cases hw

theorem viewPlace_none (s : State) (a : Access) : s.viewPlace a = none ↔ NoView s a := by
  unfold State.viewPlace NoView
  rw [findSome_allWindows_none]
  refine forall_congr' fun v => ?_
  cases s.enabled v <;> cases (s.desc v).view.has a.addr.toNat <;> simp

theorem viewPlace_some {s : State} {a : Access} {p : Place} (h : s.viewPlace a = some p) :
    ∃ w, p = .view w ∧ s.enabled w = true ∧ (s.desc w).view.has a.addr.toNat = true := by
  obtain ⟨w, hw⟩ := findSome_allWindows_some h
  split at hw
  next hv =>
    rw [Bool.and_eq_true] at hv
    exact ⟨w, (Option.some.inj hw).symm, hv.1, hv.2⟩
  · cases hw

theorem bankPlace_none (s : State) (a : Access) : s.bankPlace a = none ↔
    ∀ v, s.enabled v = true → ∀ k, ((s.desc v).bankRegion k).has a.addr.toNat = false := by
  unfold State.bankPlace
  rw [findSome_allWindows_none]
  refine forall_congr' fun v => ?_
  have hbanks : (∀ k, ((s.desc v).bankRegion k).has a.addr.toNat = false) ↔
      ((s.desc v).bankRegion .a).has a.addr.toNat = false ∧ ((s.desc v).bankRegion .b).has a.addr.toNat = false :=
    ⟨fun h => ⟨h .a, h .b⟩, fun h k => by cases k; exacts [h.1, h.2]⟩
  rw [hbanks]
  cases s.enabled v <;> cases ((s.desc v).bankRegion .a).has a.addr.toNat <;>
    cases ((s.desc v).bankRegion .b).has a.addr.toNat <;> simp

theorem bankPlace_some {s : State} {a : Access} {p : Place} (h : s.bankPlace a = some p) :
    ∃ w k, p = .bankRegion w k ∧ s.enabled w = true ∧ ((s.desc w).bankRegion k).has a.addr.toNat = true := by
  obtain ⟨w, hw⟩ := findSome_allWindows_some h
  split at hw
  next hv =>
    rw [Bool.and_eq_true] at hv
    exact ⟨w, .a, (Option.some.inj hw).symm, hv.1, hv.2⟩
  · split at hw
    next hv =>
      rw [Bool.and_eq_true] at hv
      exact ⟨w, .b, (Option.some.inj hw).symm, hv.1, hv.2⟩
    · cases hw

/-! ## The place -/

/-- R30: the class is that of the first item that applies, with what that item and the ones before it say. -/
theorem place_cases (s : State) (x : Port) (a : Access) :
    (∃ w m, s.place x a = .marker w m ∧ s.enabled w = true ∧ isMarkerOf a x (s.desc w) m) ∨
    (∃ w, s.place x a = .view w ∧ s.enabled w = true ∧ (s.desc w).view.has a.addr.toNat = true ∧
      NoMarker s x a) ∨
    (∃ w k, s.place x a = .bankRegion w k ∧ s.enabled w = true ∧ ((s.desc w).bankRegion k).has a.addr.toNat = true ∧
      NoMarker s x a ∧ NoView s a) ∨
    (s.place x a = .plain ∧ NoMarker s x a ∧ NoView s a ∧
      ∀ v, s.enabled v = true → ∀ k, ((s.desc v).bankRegion k).has a.addr.toNat = false) := by
  unfold State.place
  cases hm : s.markerPlace x a with
  | some p =>
    obtain ⟨w, m, rfl, hw⟩ := markerPlace_some hm
    exact .inl ⟨w, m, rfl, hw⟩
  | none =>
    have hnm := (markerPlace_none s x a).1 hm
    cases hv : s.viewPlace a with
    | some p =>
      obtain ⟨w, rfl, hen, hhas⟩ := viewPlace_some hv
      exact .inr (.inl ⟨w, rfl, hen, hhas, hnm⟩)
    | none =>
      have hnv := (viewPlace_none s a).1 hv
      cases hb : s.bankPlace a with
      | some p =>
        obtain ⟨w, k, rfl, hen, hhas⟩ := bankPlace_some hb
        exact .inr (.inr (.inl ⟨w, k, rfl, hen, hhas, hnm, hnv⟩))
      | none => exact .inr (.inr (.inr ⟨rfl, hnm, hnv, (bankPlace_none s a).1 hb⟩))

theorem place_marker {s : State} {x : Port} {a : Access} {w : Fin 8} {m : Marker} (h : s.place x a = .marker w m) :
    s.enabled w = true ∧ isMarkerOf a x (s.desc w) m := by
  rcases place_cases s x a with ⟨v, k, hp, hv⟩ | ⟨v, hp, -⟩ | ⟨v, k, hp, -⟩ | ⟨hp, -⟩ <;> rw [hp] at h <;> cases h
  exact hv

theorem place_view {s : State} {x : Port} {a : Access} {w : Fin 8} (h : s.place x a = .view w) :
    s.enabled w = true ∧ (s.desc w).view.has a.addr.toNat = true ∧ NoMarker s x a := by
  rcases place_cases s x a with ⟨v, k, hp, -⟩ | ⟨v, hp, hv⟩ | ⟨v, k, hp, -⟩ | ⟨hp, -⟩ <;> rw [hp] at h <;> cases h
  exact hv

theorem place_bankRegion {s : State} {x : Port} {a : Access} {w : Fin 8} {k : Bank}
    (h : s.place x a = .bankRegion w k) : s.enabled w = true ∧ ((s.desc w).bankRegion k).has a.addr.toNat = true ∧
      NoMarker s x a ∧ NoView s a := by
  rcases place_cases s x a with ⟨v, m, hp, -⟩ | ⟨v, hp, -⟩ | ⟨v, m, hp, hv⟩ | ⟨hp, -⟩ <;> rw [hp] at h <;> cases h
  exact hv

theorem place_plain {s : State} {x : Port} {a : Access} (h : s.place x a = .plain) :
    NoMarker s x a ∧ NoView s a ∧
      ∀ v, s.enabled v = true → ∀ k, ((s.desc v).bankRegion k).has a.addr.toNat = false := by
  rcases place_cases s x a with ⟨v, m, hp, -⟩ | ⟨v, hp, -⟩ | ⟨v, m, hp, -⟩ | ⟨-, hv⟩
  · rw [hp] at h; cases h
  · rw [hp] at h; cases h
  · rw [hp] at h; cases h
  · exact hv

theorem place_of_marker {s : State} {x : Port} {a : Access} {v : Fin 8} {m : Marker} (hv : s.enabled v = true)
    (hm : isMarkerOf a x (s.desc v) m) : ∃ w k, s.place x a = .marker w k := by
  rcases place_cases s x a with ⟨w, k, hp, -⟩ | ⟨w, -, -, -, hn⟩ | ⟨w, k, -, -, -, hn, -⟩ | ⟨-, hn, -⟩
  · exact ⟨w, k, hp⟩
  · exact absurd hm (hn v m hv)
  · exact absurd hm (hn v m hv)
  · exact absurd hm (hn v m hv)

/-! ## The page and the bank addresses (R33) -/

/-- R2, R33: what the conditions of ENABLE say of a view address: its offset is below the view size, a page lies inside
the run, and no bank region runs over the end of the address space. -/
theorem view_offset {d : Descriptor} {x : BitVec 32} (hu : d.usable = true) (hx : d.view.has x.toNat = true) :
    d.viewBase.toNat ≤ x.toNat ∧ x.toNat - d.viewBase.toNat < d.viewSize ∧ 0 < d.pageSize.toNat ∧
      d.pageFirst.toNat + d.pageCount.toNat ≤ 512 ∧ ∀ k, (d.bankBase k).toNat + d.viewSize ≤ 2 ^ 32 := by
  obtain ⟨hsize, hrun, hbases, -⟩ := (usable_iff d).1 hu
  obtain ⟨-, -, hfit⟩ := (runOk_iff d).1 hrun
  have hfits := (basesOk_iff d).1 hbases
  have hpos : 0 < d.pageSize.toNat := by
    have hmem := (pageSizeOk_iff d).1 hsize
    simp only [List.mem_cons, List.not_mem_nil, or_false] at hmem
    rcases hmem with h | h | h | h <;> rw [h] <;> decide
  simp only [Region.has, Bool.and_eq_true, decide_eq_true_eq] at hx
  have hle : d.viewBase.toNat ≤ x.toNat := hx.1
  have hlt : x.toNat < d.viewBase.toNat + d.viewSize := hx.2
  refine ⟨hle, by omega, hpos, hfit, fun k => ?_⟩
  have hregion : d.bankRegion k ∈ [d.view, d.bankRegion .a, d.bankRegion .b] := by cases k <;> simp
  exact (hfits _ hregion).2

/-- R33: the page of a view address, which lies in the run of the window. -/
theorem pageAt_val {d : Descriptor} {x : BitVec 32} (hu : d.usable = true) (hx : d.view.has x.toNat = true) :
    (d.pageAt x).val = d.pageFirst.toNat + (x.toNat - d.viewBase.toNat) / d.pageSize.toNat ∧
      (x.toNat - d.viewBase.toNat) / d.pageSize.toNat < d.pageCount.toNat := by
  obtain ⟨-, hoff, hpos, hfit, -⟩ := view_offset hu hx
  have hpage : (x.toNat - d.viewBase.toNat) / d.pageSize.toNat < d.pageCount.toNat :=
    (Nat.div_lt_iff_lt_mul hpos).2 hoff
  exact ⟨Nat.mod_eq_of_lt (by omega), hpage⟩

theorem inRun_pageAt {d : Descriptor} {x : BitVec 32} (hu : d.usable = true) (hx : d.view.has x.toNat = true) :
    d.inRun (d.pageAt x) = true := by
  obtain ⟨hval, hlt⟩ := pageAt_val hu hx
  unfold Descriptor.inRun
  rw [hval]
  simp [hlt]

/-- R33: the address in a bank keeps the offset in the view. -/
theorem bankAddr_toNat {d : Descriptor} {x : BitVec 32} (hu : d.usable = true) (hx : d.view.has x.toNat = true)
    (k : Bank) : (d.bankAddr k x).toNat = (d.bankBase k).toNat + (x.toNat - d.viewBase.toNat) := by
  obtain ⟨hle, hoff, -, -, hfits⟩ := view_offset hu hx
  have hk := hfits k
  unfold Descriptor.bankAddr
  rw [BitVec.toNat_add, BitVec.toNat_sub_of_le (BitVec.le_def.2 hle)]
  exact Nat.mod_eq_of_lt (by omega)

/-- Settles O29: the place by `place_cases`, and the page and the bank addresses of a view address. -/
theorem classificationAndResolution : Obligations.ClassificationAndResolution := by
  refine ⟨fun s x a => ⟨fun v m hv hm => place_of_marker hv hm, fun w m h => place_marker h, fun w h => place_view h,
    fun w k h => place_bankRegion h, fun h => place_plain h⟩, fun d x hu hx => ⟨(pageAt_val hu hx).1,
    inRun_pageAt hu hx, bankAddr_toNat hu hx .a, bankAddr_toNat hu hx .b, fun hbase => ?own⟩⟩
  case own =>
    obtain ⟨hle, -⟩ := view_offset hu hx
    apply BitVec.eq_of_toNat_eq
    rw [bankAddr_toNat hu hx]
    show d.bankABase.toNat + _ = _
    rw [hbase]
    exact Nat.add_sub_cancel' hle

end Sys2Proof.Laws
end

section
/-! The port handlers (R25, R28, R45), the judgements of the waiting accesses (R29) and the demanded page (R119): every
piece of a step keeps their laws. What judging anew leaves satisfies the last two from every state, so a piece that ends
with it needs nothing else. -/

namespace Sys2Proof.Laws

open Sys2Proof Sys2Proof.Machine

/-! ## What the grants and the responses leave alone -/

/-- The two states agree in the handlers and in the arbiter's own state. -/
structure HandlersSame (s t : State) : Prop where
  pPort : t.pPort = s.pPort
  cPort : t.cPort = s.cPort
  holdCount : t.holdCount = s.holdCount
  holdMax : t.holdMax = s.holdMax
  mport : t.mport = s.mport
  freed : t.freed = s.freed
  streak : t.streak = s.streak
  pointer : t.pointer = s.pointer

theorem HandlersSame.refl (s : State) : HandlersSame s s := ⟨rfl, rfl, rfl, rfl, rfl, rfl, rfl, rfl⟩

theorem HandlersSame.trans {s t u : State} (h : HandlersSame s t) (k : HandlersSame t u) : HandlersSame s u :=
  ⟨k.pPort.trans h.pPort, k.cPort.trans h.cPort, k.holdCount.trans h.holdCount, k.holdMax.trans h.holdMax,
    k.mport.trans h.mport, k.freed.trans h.freed, k.streak.trans h.streak, k.pointer.trans h.pointer⟩

theorem handlersSame_of_commitOnly {s t : State} (h : CommitOnly s t) : HandlersSame s t :=
  ⟨h.pPort, h.cPort, h.holdCount, h.holdMax, h.mport, h.freed, h.streak, h.pointer⟩

theorem handlersSame_record (s : State) (e : Event) : HandlersSame s (s.record e) := by constructor <;> simp

theorem HandlersSame.phaseOf {s t : State} (h : HandlersSame s t) (x : Port) : t.phaseOf x = s.phaseOf x := by
  cases x
  · exact congrArg PortState.phase h.pPort
  · exact congrArg PortState.phase h.cPort

/-- A record of a state that differs in other fields. -/
theorem handlersSame_written_record {s t : State} (e : Event) (h : HandlersSame s t) : HandlersSame s (t.record e) :=
  h.trans (handlersSame_record t e)

/-- R51: a marker takes its effect beside the handlers. -/
theorem handlersSame_takeMarker (s : State) (a : Access) (w : Fin 8) (m : Marker) :
    HandlersSame s (s.takeMarker a w m) := by
  cases m with
  | commit =>
    show HandlersSame s (s.commitMarker w _)
    unfold State.commitMarker
    dsimp only
    split
    · split
      · exact handlersSame_written_record _ ⟨rfl, rfl, rfl, rfl, rfl, rfl, rfl, rfl⟩
      · exact ⟨rfl, rfl, rfl, rfl, rfl, rfl, rfl, rfl⟩
    · exact ⟨rfl, rfl, rfl, rfl, rfl, rfl, rfl, rfl⟩
    · exact ⟨rfl, rfl, rfl, rfl, rfl, rfl, rfl, rfl⟩
  | leaseOpen =>
    show HandlersSame s (s.leaseOpen w)
    unfold State.leaseOpen
    split
    · exact ⟨rfl, rfl, rfl, rfl, rfl, rfl, rfl, rfl⟩
    · exact ⟨rfl, rfl, rfl, rfl, rfl, rfl, rfl, rfl⟩
    · exact handlersSame_record _ _
  | leaseClose =>
    show HandlersSame s (s.leaseClose w)
    unfold State.leaseClose
    split
    · exact handlersSame_of_commitOnly ((commitOnly_setWindow s w _).trans (commitOnly_judgeClose _ _))
    · exact ⟨rfl, rfl, rfl, rfl, rfl, rfl, rfl, rfl⟩
    · exact handlersSame_record _ _

theorem handlersSame_grantEffect (s : State) (a : Access) (r : Resolution) : HandlersSame s (s.grantEffect a r) := by
  unfold State.grantEffect
  split
  · exact handlersSame_takeMarker _ _ _ _
  · exact HandlersSame.refl s
  · exact HandlersSame.refl s
  · exact HandlersSame.refl s

theorem handlersSame_checkReady (s : State) (w : Fin 8) : HandlersSame s (s.checkReady w) := by
  unfold State.checkReady
  split
  · exact handlersSame_written_record _ ⟨rfl, rfl, rfl, rfl, rfl, rfl, rfl, rfl⟩
  · exact HandlersSame.refl s

theorem handlersSame_endDrain (s : State) (w : Fin 8) (p : Fin 512) : HandlersSame s (s.endDrain w p) :=
  handlersSame_written_record _ ⟨rfl, rfl, rfl, rfl, rfl, rfl, rfl, rfl⟩

theorem handlersSame_copyEndsWell (s : State) (p : Fin 512) : HandlersSame s (s.copyEndsWell p) := by
  have hsynced : HandlersSame s (s.engineIdle.setPage p { s.page p with state := .synced, attempts := 0#2 }) :=
    ⟨rfl, rfl, rfl, rfl, rfl, rfl, rfl, rfl⟩
  have hidle : HandlersSame s s.engineIdle := ⟨rfl, rfl, rfl, rfl, rfl, rfl, rfl, rfl⟩
  unfold State.copyEndsWell
  dsimp only
  split
  · exact hsynced.trans (handlersSame_checkReady _ _)
  · exact hidle.trans (handlersSame_endDrain _ _ _)
  · exact hidle

theorem handlersSame_attemptFailed (s : State) (w : Fin 8) (p : Fin 512) : HandlersSame s (s.attemptFailed w p) := by
  unfold State.attemptFailed
  dsimp only
  split
  · exact handlersSame_written_record _ ⟨rfl, rfl, rfl, rfl, rfl, rfl, rfl, rfl⟩
  · exact handlersSame_written_record _ ⟨rfl, rfl, rfl, rfl, rfl, rfl, rfl, rfl⟩

theorem handlersSame_copyFails (s : State) (p : Fin 512) : HandlersSame s (s.copyFails p) := by
  have hnoted : ∀ e, HandlersSame s (s.engineIdle.record e) := fun e =>
    handlersSame_written_record e ⟨rfl, rfl, rfl, rfl, rfl, rfl, rfl, rfl⟩
  unfold State.copyFails
  dsimp only
  split
  · exact ((hnoted _).trans (handlersSame_attemptFailed _ _ _)).trans (handlersSame_checkReady _ _)
  · exact (hnoted _).trans (handlersSame_endDrain _ _ _)
  · exact hnoted _

/-- R140: the Copy Engine takes its response beside the handlers. -/
theorem handlersSame_copyResponse (s : State) (r : BusResp) (d : List Word) : HandlersSame s (s.copyResponse r d) := by
  unfold State.copyResponse
  split
  · exact HandlersSame.refl s
  · split
    · unfold State.copyOkay
      dsimp only
      split
      · exact HandlersSame.refl s
      · exact ⟨rfl, rfl, rfl, rfl, rfl, rfl, rfl, rfl⟩
      · split
        · exact ⟨rfl, rfl, rfl, rfl, rfl, rfl, rfl, rfl⟩
        · exact handlersSame_copyEndsWell _ _
    · exact handlersSame_copyFails _ _

theorem handlersSame_flipAfter (s : State) (q : Requester) : HandlersSame s (s.flipAfter q) := by
  have hflip : ∀ f, HandlersSame s (({ s with pendingFlip := none } : State).flip f) := fun f =>
    HandlersSame.trans (t := { s with pendingFlip := none }) ⟨rfl, rfl, rfl, rfl, rfl, rfl, rfl, rfl⟩
      (handlersSame_of_commitOnly (commitOnly_flip _ f))
  unfold State.flipAfter
  split
  · exact hflip _
  · exact hflip _
  · exact HandlersSame.refl s
  · exact HandlersSame.refl s

/-- R27: the ending of a port access answers its handler, and touches no other handler state. -/
theorem handlersSame_endAccess {s : State} {x : Port} {a : Access} {res : Resolution} (h : s.phaseOf x = .issued a res)
    (r : BusResp) (d : List Word) : HandlersSame (s.respond x r (readBeats a d)) (s.endAccess x r d) := by
  unfold State.endAccess
  rw [h]
  dsimp only
  split
  · rw [endWrite_eq]; exact ⟨rfl, rfl, rfl, rfl, rfl, rfl, rfl, rfl⟩
  · split
    · exact handlersSame_record _ _
    · exact HandlersSame.refl _

theorem endAccess_of_not_issued {s : State} {x : Port} (h : ∀ a res, s.phaseOf x ≠ .issued a res) (r : BusResp)
    (d : List Word) : s.endAccess x r d = s := by
  unfold State.endAccess
  split
  next a res hphase => exact absurd hphase (h a res)
  · rfl

/-! ## The port handlers -/

/-- R28: a phase is that of a write held with reason SEALED. -/
def isSealedHold : Phase → Bool
  | .held _ .sealed _ _ => true
  | _ => false

theorem sealedHold_eq (s : State) : s.sealedHold = isSealedHold s.pPort.phase := by
  unfold State.sealedHold isSealedHold
  rfl

theorem portsOk_of_eq {s t : State} (h : s.PortsOk) (hp : t.pPort = s.pPort := by rfl)
    (hc : t.cPort = s.cPort := by rfl) (hn : t.holdCount = s.holdCount := by rfl)
    (hm : t.holdMax = s.holdMax := by rfl) : t.PortsOk := by
  have hsealed : t.sealedHold = s.sealedHold := by rw [sealedHold_eq, sealedHold_eq, hp]
  refine ⟨fun x => ?_, by rw [hc]; exact h.consumer, by rw [hsealed, hn]; exact h.count, by rw [hm]; exact h.holdMax⟩
  cases x with
  | p =>
    show t.pPort.phase ≠ .idle → t.pPort.resp = none
    rw [hp]; exact h.noResponse .p
  | c =>
    show t.cPort.phase ≠ .idle → t.cPort.resp = none
    rw [hc]; exact h.noResponse .c

theorem portsOk_of_handlersSame {s t : State} (h : s.PortsOk) (k : HandlersSame s t) : t.PortsOk :=
  portsOk_of_eq h k.pPort k.cPort k.holdCount k.holdMax

/-- The P-port Handler takes a state of its own. -/
theorem portsOk_setProducer {s : State} (h : s.PortsOk) {v : PortState} {n : Nat}
    (hresp : v.phase ≠ .idle → v.resp = none) (hcount : isSealedHold v.phase = false → n = 0) :
    ({ s with pPort := v, holdCount := n } : State).PortsOk := by
  refine ⟨fun x => ?_, h.consumer, fun hs => hcount ((sealedHold_eq _).symm.trans hs), h.holdMax⟩
  cases x with
  | p => exact hresp
  | c => exact h.noResponse .c

/-- The C-port Handler takes a state of its own. -/
theorem portsOk_setConsumer {s : State} (h : s.PortsOk) {v : PortState} (hresp : v.phase ≠ .idle → v.resp = none)
    (hheld : ∀ a why w p, v.phase ≠ .held a why w p := by nofun) : ({ s with cPort := v } : State).PortsOk := by
  refine ⟨fun x => ?_, hheld, h.count, h.holdMax⟩
  cases x with
  | p => exact h.noResponse .p
  | c => exact hresp

/-- R27: a handler that answers is IDLE. -/
theorem portsOk_respond {s : State} (h : s.PortsOk) (x : Port) (hcount : x = .p → s.holdCount = 0) (r : BusResp)
    (d : List Word) : (s.respond x r d).PortsOk := by
  cases x with
  | p => exact portsOk_of_eq (portsOk_setProducer h (fun e => absurd rfl e) fun _ => hcount rfl)
  | c => exact portsOk_setConsumer h fun e => absurd rfl e

theorem holdCount_of_phase {s : State} (h : s.PortsOk) {x : Port} (hp : isSealedHold (s.phaseOf x) = false) (hx : x = .p) :
    s.holdCount = 0 := by
  subst hx
  exact h.count ((sealedHold_eq s).trans hp)

theorem portsOk_takeJudgement {s : State} (h : s.PortsOk) (x : Port) (a : Access) {j : Judgement}
    (hj : x = .c → ∀ why w p, j ≠ .hold why w p) : (s.takeJudgement x a j).PortsOk := by
  cases x with
  | p =>
    cases j with
    | go r => exact portsOk_setProducer h (fun _ => rfl) fun _ => rfl
    | hold why w p =>
      cases why with
      | demand =>
        show (State.promote _ p).PortsOk
        rw [promote_eq]
        exact portsOk_of_eq (portsOk_setProducer h (v := { phase := .held a .demand w p, resp := none }) (n := 0)
          (fun _ => rfl) fun _ => rfl)
      | sealed =>
        show ((if s.sealedHold then s else s.clearHold .p).setPhase .p _).PortsOk
        split
        · exact portsOk_setProducer h (fun _ => rfl) nofun
        · exact portsOk_setProducer h (fun _ => rfl) fun _ => rfl
    | refuse e =>
      exact portsOk_of_handlersSame (portsOk_setProducer h (fun e => absurd rfl e) fun _ => rfl) (handlersSame_record _ e)
  | c =>
    cases j with
    | go r => exact portsOk_setConsumer h fun _ => rfl
    | hold why w p => exact absurd rfl (hj rfl why w p)
    | refuse e =>
      exact portsOk_of_handlersSame (portsOk_setConsumer h fun e => absurd rfl e) (handlersSame_record _ e)

theorem portsOk_judgeAccess {s : State} (h : s.PortsOk) (x : Port) (a : Access) : (s.judgeAccess x a).PortsOk := by
  have hnoted : (s.noteMerge x a).PortsOk := by
    unfold State.noteMerge
    split
    · exact portsOk_of_handlersSame (portsOk_of_eq h) (handlersSame_record _ _)
    · exact h
  refine portsOk_takeJudgement hnoted x a fun hx why w p => ?_
  subst hx
  exact judge_consumer_never_holds s a why w p

theorem portsOk_settle {s : State} (h : s.PortsOk) (x : Port) : (s.settle x).PortsOk := by
  unfold State.settle
  split
  · exact h
  · exact portsOk_judgeAccess h x _
  · exact portsOk_judgeAccess h x _
  · exact h

theorem portsOk_rejudge {s : State} (h : s.PortsOk) : s.rejudge.PortsOk := by
  have hcount : ∀ n, ({ s with freeCount := n } : State).PortsOk := fun n => portsOk_of_eq h
  rcases rejudge_cases s with ⟨n, hr⟩ | ⟨n, hr⟩ <;> rw [hr]
  · exact portsOk_settle (portsOk_settle (hcount n) _) _
  · exact portsOk_settle (portsOk_settle (hcount n) _) _

theorem portsOk_grantPort {s : State} (h : s.PortsOk) (x : Port) (q : Requester) : (s.grantPort x q).PortsOk := by
  unfold State.grantPort
  split
  next a r hphase =>
    refine portsOk_of_handlersSame ?_ (handlersSame_grantEffect _ a r)
    cases x with
    | p =>
      have hcount : s.holdCount = 0 := holdCount_of_phase h (x := .p) (by rw [hphase]; rfl) rfl
      exact portsOk_of_eq (portsOk_setProducer h (v := { phase := .issued a r, resp := none }) (n := s.holdCount)
        (fun _ => rfl) fun _ => hcount)
    | c =>
      exact portsOk_of_eq (portsOk_setConsumer h (v := { phase := .issued a r, resp := none }) fun _ => rfl)
  · exact h

theorem grantEngine_eq (s : State) : s.grantEngine = { s with
    pages := s.grantEngine.pages, copyQueue := s.grantEngine.copyQueue, engine := s.grantEngine.engine } := by
  unfold State.grantEngine State.startCopy
  split
  · split <;> rfl
  · rfl
  · rfl

theorem portsOk_grantTo {s : State} (h : s.PortsOk) (q : Requester) : (s.grantTo q).PortsOk := by
  have hnoted : (s.noteGrant q).PortsOk := by cases q <;> exact portsOk_of_eq h
  cases q with
  | consumer => exact portsOk_grantPort hnoted _ _
  | producer => exact portsOk_grantPort hnoted _ _
  | copy =>
    show (State.issue _ .copy _).PortsOk
    rw [grantEngine_eq]
    exact portsOk_of_eq hnoted

theorem portsOk_endAccess {s : State} (h : s.PortsOk) (x : Port) (r : BusResp) (d : List Word) :
    (s.endAccess x r d).PortsOk := by
  by_cases hissued : ∃ a res, s.phaseOf x = .issued a res
  · obtain ⟨a, res, hphase⟩ := hissued
    refine portsOk_of_handlersSame (portsOk_respond h x ?_ r _) (handlersSame_endAccess hphase r d)
    exact holdCount_of_phase h (by rw [hphase]; rfl)
  · rw [endAccess_of_not_issued (fun a res e => hissued ⟨a, res, e⟩)]
    exact h

theorem portsOk_holderStep {s : State} (h : s.PortsOk) (q : Requester) (r : BusResp) (d : List Word) :
    (s.holderStep q r d).PortsOk := by
  cases q with
  | consumer => exact portsOk_endAccess h .c r d
  | producer => exact portsOk_endAccess h .p r d
  | copy => exact portsOk_of_handlersSame h (handlersSame_copyResponse s r d)

theorem portsOk_timeOut {s : State} (h : s.PortsOk) (a : Access) : ((s.clearHold .p).refuseAccess .p a).PortsOk :=
  portsOk_setProducer h (fun e => absurd rfl e) fun _ => rfl

theorem portsOk_holdBoundary {s : State} (h : s.PortsOk) (taken : Fin 8 → Bool) : (s.holdBoundary taken).PortsOk := by
  unfold State.holdBoundary
  split
  next a w p hheld =>
    split
    · exact h
    · split
      · exact portsOk_of_handlersSame (portsOk_timeOut h a) (handlersSame_record _ _)
      · refine portsOk_setProducer (n := s.holdCount + 1) h (v := s.pPort) (h.noResponse .p) fun hs => ?_
        rw [hheld] at hs; cases hs
  · exact h

theorem portsOk_dropHeld {s : State} (h : s.PortsOk) : ({ s.dropHeld with holdCount := 0 } : State).PortsOk := by
  unfold State.dropHeld
  split
  · exact portsOk_setProducer h (fun e => absurd rfl e) fun _ => rfl
  · exact portsOk_setProducer h (h.noResponse .p) fun _ => rfl

theorem disarmed_eq (s : State) (w : Fin 8) :
    s.disarmed w = { s with windows := (s.disarmed w).windows, groups := (s.disarmed w).groups } := by
  unfold State.disarmed
  dsimp only
  split <;> rfl

theorem portsOk_change {o : Bool} {s t : State} (h : s.PortsOk) (c : Change o s t) : t.PortsOk := by
  cases c with
  | unlawed => exact portsOk_of_eq h
  | inputs => exact portsOk_of_eq h
  | freed => exact portsOk_of_eq h
  | mgmt => exact portsOk_of_eq h
  | timer => exact portsOk_of_eq h
  | freeze => exact portsOk_of_eq h
  | record e => exact portsOk_of_handlersSame h (handlersSame_record s e)
  | pop => exact portsOk_of_eq h
  | evmask => exact portsOk_of_eq h
  | limit => exact portsOk_of_eq h
  | holdMax n hn => exact ⟨h.noResponse, h.consumer, h.count, hn⟩
  | descriptor => exact portsOk_of_eq h
  | judge x a => exact portsOk_judgeAccess h x a
  | misformed x a hidle =>
    exact portsOk_respond h x (holdCount_of_phase h (by rw [hidle]; rfl)) _ _
  | timeOut a => exact portsOk_timeOut h a
  | grant q => exact portsOk_rejudge (portsOk_grantTo h q)
  | response q m r d =>
    exact portsOk_rejudge (portsOk_of_handlersSame (portsOk_holderStep (portsOk_of_eq h) q r d)
      (handlersSame_flipAfter _ q))
  | deliver =>
    have hjudged := portsOk_of_handlersSame h (handlersSame_of_commitOnly (commitOnly_judgeGroups s))
    exact portsOk_rejudge (portsOk_holdBoundary hjudged _)
  | enable => exact portsOk_rejudge (portsOk_of_eq h)
  | drain => exact portsOk_rejudge (portsOk_of_eq h)
  | disable => exact portsOk_rejudge (portsOk_of_handlersSame (portsOk_of_eq h) (handlersSame_record _ _))
  | resync => exact portsOk_rejudge (portsOk_of_eq h)
  | disarm w =>
    rw [disarmed_eq]
    exact portsOk_rejudge (portsOk_of_eq h)
  | engineReset => exact portsOk_rejudge (portsOk_of_eq (portsOk_dropHeld h))
  | hardReset =>
    exact ⟨fun x => by cases x <;> exact fun e => absurd rfl e, nofun, fun _ => rfl, by
      show (2#3 : BitVec 3) ≠ 0#3; decide⟩

/-! ## The judgements -/

/-- R29: the waiting access of one handler stands as its judgement gives it. -/
def Stands (s : State) (x : Port) : Prop :=
  match s.phaseOf x with
  | .idle => True
  | .issued _ _ => True
  | .pending a r => s.judge x a = .go r ∧ s.mergeToNote x a = none
  | .held a why w p => s.judge x a = .hold why w p ∧ s.mergeToNote x a = none

theorem judgedOk_iff (s : State) : s.JudgedOk ↔ ∀ x, Stands s x := Iff.rfl

theorem stands_of_idle {s : State} {x : Port} (h : s.phaseOf x = .idle) : Stands s x := by
  unfold Stands
  rw [h]
  trivial

theorem stands_pending {s : State} {x : Port} {a : Access} {r : Resolution} (hs : Stands s x)
    (h : s.phaseOf x = .pending a r) : s.judge x a = .go r ∧ s.mergeToNote x a = none := by
  unfold Stands at hs
  rw [h] at hs
  exact hs

theorem stands_held {s : State} {x : Port} {a : Access} {why : HoldReason} {w : Fin 8} {p : Fin 512} (hs : Stands s x)
    (h : s.phaseOf x = .held a why w p) : s.judge x a = .hold why w p ∧ s.mergeToNote x a = none := by
  unfold Stands at hs
  rw [h] at hs
  exact hs

/-- A judgement that reads alike in two states stands in both. -/
theorem stands_of_eq {s t : State} {x : Port} (h : Stands s x) (hphase : t.phaseOf x = s.phaseOf x)
    (hjudge : ∀ a, t.judge x a = s.judge x a) (hnote : ∀ a, t.mergeToNote x a = s.mergeToNote x a) : Stands t x := by
  unfold Stands
  rw [hphase]
  split
  · trivial
  · trivial
  next a r hp =>
    rw [hjudge, hnote]
    exact stands_pending h hp
  next a why w p hp =>
    rw [hjudge, hnote]
    exact stands_held h hp

theorem judgedOk_of_eq {s t : State} (h : s.JudgedOk) (hw : s.windows = t.windows := by rfl)
    (hp : s.pages = t.pages := by rfl) (hn : s.mergeNoted = t.mergeNoted := by rfl)
    (hpp : t.pPort = s.pPort := by rfl) (hcp : t.cPort = s.cPort := by rfl) : t.JudgedOk := fun x => by
  have hphase : t.phaseOf x = s.phaseOf x := by
    cases x
    · exact congrArg PortState.phase hpp
    · exact congrArg PortState.phase hcp
  exact stands_of_eq (h x) hphase (fun a => (judge_congr hw hp x a).symm) fun a => (mergeToNote_congr hw hn x a).symm

/-- R42: what makes a late write one to note. -/
theorem mergeToNote_eq_some {s : State} {x : Port} {a : Access} {w : Fin 8} {p : Fin 512} :
    s.mergeToNote x a = some (w, p) ↔ x = .p ∧ a.write = true ∧ s.place .p a = .view w ∧ s.isSealed w = true ∧
      (s.desc w).policyOf = .merge ∧ s.noted w = false ∧ p = (s.desc w).pageAt a.addr := by
  unfold State.mergeToNote
  constructor
  · intro h
    split at h
    next v hwrite hplace =>
      split at h
      next hcond =>
        obtain ⟨rfl, rfl⟩ := Prod.mk.inj (Option.some.inj h)
        simp only [Bool.and_eq_true, beq_iff_eq, Bool.not_eq_true'] at hcond
        obtain ⟨⟨hsealed, hpolicy⟩, hnoted⟩ := hcond
        exact ⟨rfl, hwrite, hplace, hsealed, hpolicy, hnoted, rfl⟩
      · cases h
    · cases h
  · rintro ⟨rfl, hwrite, hplace, hsealed, hpolicy, hnoted, rfl⟩
    rw [hwrite, hplace]
    simp [hsealed, hpolicy, hnoted]

/-- R42: a late write is noted once. -/
theorem mergeToNote_noteMerge (s : State) (x : Port) (a : Access) : (s.noteMerge x a).mergeToNote x a = none := by
  unfold State.noteMerge
  split
  next w p hnote =>
    rw [mergeToNote_congr (t := s.setNoted w true) (record_windows _ _) (record_mergeNoted _ _),
      Option.eq_none_iff_forall_ne_some]
    rintro ⟨v, q⟩ hagain
    obtain ⟨-, -, hplace, -⟩ := mergeToNote_eq_some.1 hnote
    obtain ⟨-, -, hplaced, -, -, hnoted, -⟩ := mergeToNote_eq_some.1 hagain
    have hv : Place.view v = .view w := hplaced.symm.trans hplace
    cases hv
    rw [noted_setNoted_same] at hnoted
    cases hnoted
  next hnote => exact hnote

/-- The phase that a judgement gives. -/
def judgedPhase (a : Access) : Judgement → Phase
  | .go r => .pending a r
  | .hold why w p => .held a why w p
  | .refuse _ => .idle

theorem phaseOf_record (s : State) (e : Event) (x : Port) : (s.record e).phaseOf x = s.phaseOf x := by
  cases x <;> simp [State.phaseOf, State.port]

theorem phaseOf_promote (s : State) (p : Fin 512) (x : Port) : (s.promote p).phaseOf x = s.phaseOf x := by
  rw [promote_eq]; cases x <;> rfl

theorem phaseOf_takeJudgement (s : State) (x : Port) (a : Access) (j : Judgement) :
    (s.takeJudgement x a j).phaseOf x = judgedPhase a j := by
  cases j with
  | go r => exact phaseOf_setPort_same _ x _
  | hold why w p =>
    cases why with
    | demand => exact (phaseOf_promote _ p x).trans (phaseOf_setPort_same _ x _)
    | sealed => exact phaseOf_setPort_same _ x _
  | refuse e => exact (phaseOf_record _ e x).trans (phaseOf_setPort_same _ x _)

theorem mergeNoted_takeJudgement (s : State) (x : Port) (a : Access) (j : Judgement) :
    (s.takeJudgement x a j).mergeNoted = s.mergeNoted := by
  have hclear : (s.clearHold x).mergeNoted = s.mergeNoted := by cases x <;> rfl
  have hphase : ∀ (t : State) ph, (t.setPhase x ph).mergeNoted = t.mergeNoted := fun t ph => setPort_mergeNoted t x _
  cases j with
  | go r => exact (hphase _ _).trans hclear
  | hold why w p =>
    cases why with
    | demand =>
      show (State.promote _ p).mergeNoted = _
      rw [promote_eq]
      exact (hphase _ _).trans hclear
    | sealed =>
      show ((if s.sealedHold then s else s.clearHold x).setPhase x _).mergeNoted = _
      rw [hphase]
      split
      · rfl
      · exact hclear
  | refuse e => exact (record_mergeNoted _ e).trans ((setPort_mergeNoted _ x _).trans hclear)

/-- R29: the access just judged stands as its judgement gives it. -/
theorem stands_judgeAccess (s : State) (x : Port) (a : Access) : Stands (s.judgeAccess x a) x := by
  have honly := portsOnly_judgeAccess s x a
  have hjudge : (s.judgeAccess x a).judge x a = s.judge x a := judge_congr honly.windows honly.pages x a
  have hnote : (s.judgeAccess x a).mergeToNote x a = none := by
    unfold State.judgeAccess
    rw [mergeToNote_congr (portsOnly_takeJudgement _ x a _).windows (mergeNoted_takeJudgement _ x a _)]
    exact mergeToNote_noteMerge s x a
  have hphase : (s.judgeAccess x a).phaseOf x = judgedPhase a (s.judge x a) := phaseOf_takeJudgement _ x a _
  unfold Stands
  rw [hphase]
  cases hj : s.judge x a with
  | go r => exact ⟨hjudge.trans hj, hnote⟩
  | hold why w p => exact ⟨hjudge.trans hj, hnote⟩
  | refuse e => trivial

theorem stands_settle_same (s : State) (x : Port) : Stands (s.settle x) x := by
  unfold State.settle
  split
  next h => exact stands_of_idle h
  · exact stands_judgeAccess s x _
  · exact stands_judgeAccess s x _
  next h =>
    unfold Stands
    rw [h]
    trivial

/-- R42: what a judgement of the consumer notes is nothing. -/
theorem mergeNoted_settle_consumer (s : State) : (s.settle .c).mergeNoted = s.mergeNoted := by
  rw [settle_consumer_eq]

/-- R42: only the producer's judgement reads the merge-noted flags, and only it writes them. -/
theorem stands_of_otherPort {s t : State} {x y : Port} (h : Stands s y) (hne : y ≠ x) (honly : PortsOnly s t)
    (hport : t.port y = s.port y) (hnoted : x = .c → t.mergeNoted = s.mergeNoted) : Stands t y := by
  refine stands_of_eq h (congrArg PortState.phase hport)
    (fun a => judge_congr honly.windows honly.pages y a) fun a => ?_
  cases y with
  | p =>
    cases x with
    | p => exact absurd rfl hne
    | c => exact mergeToNote_congr honly.windows (hnoted rfl) .p a
  | c => rfl

theorem stands_settle_other {s : State} {x y : Port} (hne : y ≠ x) (h : Stands s y) : Stands (s.settle x) y :=
  stands_of_otherPort h hne (portsOnly_settle s x) (settle_otherPort s hne) fun hx => by
    subst hx; exact mergeNoted_settle_consumer s

/-- R29: after judging anew every waiting access stands as its judgement gives it. -/
theorem judgedOk_rejudge (s : State) : s.rejudge.JudgedOk := by
  have hboth : ∀ (t : State) (x y : Port), y ≠ x → ((t.settle x).settle y).JudgedOk := fun t x y hne z => by
    by_cases hz : z = y
    · subst hz; exact stands_settle_same _ z
    · have hzx : z = x := by cases x <;> cases y <;> cases z <;> simp_all
      subst hzx
      exact stands_settle_other (Ne.symm hne) (stands_settle_same t z)
  rcases rejudge_cases s with ⟨n, hr⟩ | ⟨n, hr⟩ <;> rw [hr]
  · exact hboth _ _ _ (by decide)
  · exact hboth _ _ _ (by decide)

/-- A handler that an access leaves IDLE beside the other one as it was. -/
theorem judgedOk_of_idle {s t : State} (h : s.JudgedOk) {x : Port} (hidle : t.phaseOf x = .idle) (honly : PortsOnly s t)
    (hother : ∀ y, y ≠ x → t.port y = s.port y) (hnoted : t.mergeNoted = s.mergeNoted) : t.JudgedOk := fun y => by
  by_cases hy : y = x
  · subst hy; exact stands_of_idle hidle
  · exact stands_of_otherPort (h y) hy honly (hother y hy) fun _ => hnoted

theorem judgedOk_refuseAccess {s : State} (h : s.JudgedOk) (x : Port) (a : Access) : (s.refuseAccess x a).JudgedOk :=
  judgedOk_of_idle h (phaseOf_setPort_same s x _) (portsOnly_setPort s x _) (fun _ hy => port_setPort_ne s _ hy)
    (setPort_mergeNoted s x _)

theorem port_record (s : State) (e : Event) (y : Port) : (s.record e).port y = s.port y := by
  cases y <;> simp [State.port]

theorem port_clearHold (s : State) (x y : Port) : (s.clearHold x).port y = s.port y := by
  cases x <;> cases y <;> rfl

theorem port_promote (s : State) (p : Fin 512) (y : Port) : (s.promote p).port y = s.port y := by
  rw [promote_eq]; cases y <;> rfl

/-- A judgement of one handler leaves the other as it was. -/
theorem port_judgeAccess_ne (s : State) {x y : Port} (hne : y ≠ x) (a : Access) :
    (s.judgeAccess x a).port y = s.port y := by
  have hnoted : (s.noteMerge x a).port y = s.port y := by
    unfold State.noteMerge
    split
    · rw [port_record]; cases y <;> rfl
    · rfl
  have hset : ∀ (t : State) v, (t.setPort x v).port y = t.port y := fun t v => port_setPort_ne t v hne
  refine Eq.trans ?_ hnoted
  unfold State.judgeAccess
  cases s.judge x a with
  | go r => exact (hset _ _).trans (port_clearHold _ x y)
  | hold why w p =>
    cases why with
    | demand =>
      exact (port_promote _ p y).trans ((hset _ _).trans (port_clearHold _ x y))
    | sealed =>
      show ((if (s.noteMerge x a).sealedHold then _ else _ : State).setPhase x _).port y = _
      split
      · exact hset _ _
      · exact (hset _ _).trans (port_clearHold _ x y)
  | refuse e => exact (port_record _ e y).trans ((hset _ _).trans (port_clearHold _ x y))

/-- An IDLE handler judges the access it accepts, the other standing as it was. -/
theorem judgedOk_judgeAccess {s : State} (h : s.JudgedOk) (x : Port) (a : Access) : (s.judgeAccess x a).JudgedOk :=
  fun y => by
  by_cases hy : y = x
  · subst hy; exact stands_judgeAccess s y a
  · refine stands_of_otherPort (h y) hy (portsOnly_judgeAccess s x a) (port_judgeAccess_ne s hy a) fun hx => ?_
    subst hx
    exact mergeNoted_takeJudgement _ .c a _

/-! ## A write of a descriptor -/

/-- The descriptor of a window that is not ENABLED says nothing of an access. -/
theorem enabled_setDesc (s : State) (w v : Fin 8) (d : Descriptor) :
    (s.setWindow w { s.window w with desc := d }).enabled v = s.enabled v := by
  unfold State.enabled
  rw [window_setWindow]
  split
  next h => rw [h]
  · rfl

theorem desc_setDesc_of_enabled {s : State} {w v : Fin 8} (d : Descriptor) (hw : (s.window w).enable = .disabled)
    (hv : s.enabled v = true) : (s.setWindow w { s.window w with desc := d }).desc v = s.desc v := by
  have hne : v ≠ w := by
    intro e
    unfold State.enabled at hv
    rw [e, hw] at hv
    cases hv
  unfold State.desc
  rw [window_setWindow_ne s _ hne]

/-- R30: the place of an access by the ENABLED windows alone. -/
theorem place_of_sameEnabled {s t : State} (hen : ∀ v, t.enabled v = s.enabled v)
    (hdesc : ∀ v, s.enabled v = true → t.desc v = s.desc v) (x : Port) (a : Access) : t.place x a = s.place x a := by
  have hmarker : t.markerPlace x a = s.markerPlace x a := by
    unfold State.markerPlace
    congr 1
    funext v
    rw [hen v]
    by_cases hv : s.enabled v = true
    · rw [hdesc v hv]
    · rw [if_neg hv, if_neg hv]
  have hview : t.viewPlace a = s.viewPlace a := by
    unfold State.viewPlace
    congr 1
    funext v
    rw [hen v]
    by_cases hv : s.enabled v = true
    · rw [hdesc v hv]
    · rw [Bool.not_eq_true] at hv
      rw [hv]; rfl
  have hbank : t.bankPlace a = s.bankPlace a := by
    unfold State.bankPlace
    congr 1
    funext v
    rw [hen v]
    by_cases hv : s.enabled v = true
    · rw [hdesc v hv]
    · rw [Bool.not_eq_true] at hv
      rw [hv]; rfl
  unfold State.place
  rw [hmarker, hview, hbank]

theorem isSealed_setDesc (s : State) (w v : Fin 8) (d : Descriptor) :
    (s.setWindow w { s.window w with desc := d }).isSealed v = s.isSealed v := by
  unfold State.isSealed
  rw [window_setWindow]
  split
  next h => rw [h]
  · rfl

/-- R3, R29: a write of the descriptor of a DISABLED window changes no judgement. -/
theorem judge_setDesc {s : State} {w : Fin 8} (d : Descriptor) (hw : (s.window w).enable = .disabled) (x : Port)
    (a : Access) : (s.setWindow w { s.window w with desc := d }).judge x a = s.judge x a := by
  have hplace := place_of_sameEnabled (fun v => enabled_setDesc s w v d) (fun v hv => desc_setDesc_of_enabled d hw hv) x a
  unfold State.judge
  rw [hplace]
  split
  · rfl
  next v hv =>
    have hdesc := desc_setDesc_of_enabled d hw (place_view hv).1
    unfold State.judgeView State.judgeProducerWrite State.judgeWrite State.served
    rw [hdesc, isSealed_setDesc]
    rfl
  next v k hv => rw [desc_setDesc_of_enabled d hw (place_bankRegion hv).1]
  · rfl

theorem mergeToNote_setDesc {s : State} {w : Fin 8} (d : Descriptor) (hw : (s.window w).enable = .disabled) (x : Port)
    (a : Access) : (s.setWindow w { s.window w with desc := d }).mergeToNote x a = s.mergeToNote x a := by
  have hplace := place_of_sameEnabled (fun v => enabled_setDesc s w v d) (fun v hv => desc_setDesc_of_enabled d hw hv) x a
  unfold State.mergeToNote
  rw [hplace]
  split
  next v _ hv =>
    rw [desc_setDesc_of_enabled d hw (place_view hv).1, isSealed_setDesc]
    rfl
  · rfl

theorem judgedOk_change {o : Bool} {s t : State} (h : s.JudgedOk) (c : Change o s t) : t.JudgedOk := by
  cases c with
  | unlawed => exact judgedOk_of_eq h
  | inputs => exact judgedOk_of_eq h
  | freed => exact judgedOk_of_eq h
  | mgmt => exact judgedOk_of_eq h
  | timer => exact judgedOk_of_eq h
  | freeze => exact judgedOk_of_eq h
  | record e =>
    exact judgedOk_of_eq h (record_windows s e).symm (record_pages s e).symm (record_mergeNoted s e).symm
      (record_pPort s e) (record_cPort s e)
  | pop => exact judgedOk_of_eq h
  | evmask => exact judgedOk_of_eq h
  | limit => exact judgedOk_of_eq h
  | holdMax => exact judgedOk_of_eq h
  | descriptor w d hw =>
    exact fun x => stands_of_eq (h x) (by cases x <;> rfl) (judge_setDesc d hw x) (mergeToNote_setDesc d hw x)
  | judge x a => exact judgedOk_judgeAccess h x a
  | misformed x a => exact judgedOk_refuseAccess h x a
  | timeOut a => exact judgedOk_refuseAccess (s := s.clearHold .p) (judgedOk_of_eq h) .p a
  | grant => exact judgedOk_rejudge _
  | response => exact judgedOk_rejudge _
  | deliver => exact judgedOk_rejudge _
  | enable => exact judgedOk_rejudge _
  | drain => exact judgedOk_rejudge _
  | disable => exact judgedOk_rejudge _
  | resync => exact judgedOk_rejudge _
  | disarm => exact judgedOk_rejudge _
  | engineReset => exact judgedOk_rejudge _
  | hardReset => exact fun x => by cases x <;> trivial

/-! ## The demanded page -/

theorem demandOk_of_eq {s t : State} (h : s.DemandOk) (hp : t.pPort = s.pPort := by rfl)
    (hg : t.pages = s.pages := by rfl) (hq : t.copyQueue = s.copyQueue := by rfl) : t.DemandOk := by
  intro p hdemand hstale
  have hsame : t.demandPage = s.demandPage := by unfold State.demandPage; rw [hp]
  rw [hq]
  exact h p (hsame ▸ hdemand) (page_congr hg p ▸ hstale)

/-- R39: only a write held with reason DEMAND presents a demand. -/
theorem demandPage_eq_some (s : State) (p : Fin 512) :
    s.demandPage = some p ↔ ∃ a w, s.pPort.phase = .held a .demand w p := by
  unfold State.demandPage
  split
  next a w q hphase => simp [hphase]
  next hphase =>
    constructor
    · intro h; cases h
    · rintro ⟨a, w, h⟩; exact absurd h (hphase a w p)

theorem demandOk_of_none {s : State} (h : ∀ a w p, s.pPort.phase ≠ .held a .demand w p) : s.DemandOk := by
  intro p hdemand
  obtain ⟨a, w, hphase⟩ := (demandPage_eq_some s p).1 hdemand
  exact absurd hphase (h a w p)

/-- R39, R119: a judgement that holds a write for a demand moves its page to the head of the queue. -/
theorem demandOk_judgeProducer (s : State) (a : Access) : (s.judgeAccess .p a).DemandOk := by
  have hphase : (s.judgeAccess .p a).pPort.phase = judgedPhase a (s.judge .p a) := phaseOf_takeJudgement _ .p a _
  by_cases hd : ∃ w p, s.judge .p a = .hold .demand w p
  · obtain ⟨w, p, hj⟩ := hd
    intro q hdemand hstale
    obtain ⟨b, v, hq⟩ := (demandPage_eq_some _ q).1 hdemand
    rw [hphase, hj] at hq
    cases hq
    unfold State.judgeAccess at hstale ⊢
    rw [hj] at hstale ⊢
    have hsame := (portsOnly_takeJudgement (s.noteMerge .p a) .p a (.hold .demand w p)).pages
    rw [page_congr hsame p] at hstale
    have hheld : (State.page (((s.noteMerge .p a).clearHold .p).setPhase .p (.held a .demand w p)) p).state = .stale :=
      hstale
    show (State.promote _ p).copyQueue.head? = some p
    rw [promote_stale _ p hheld]
    rfl
  · refine demandOk_of_none fun b w p hp => ?_
    rw [hphase] at hp
    cases hj : s.judge .p a with
    | go r => rw [hj] at hp; cases hp
    | hold why v q =>
      rw [hj] at hp
      cases hp
      exact hd ⟨w, p, hj⟩
    | refuse e => rw [hj] at hp; cases hp

/-- R119: after judging anew a demanded STALE page is at the head of the queue. -/
theorem demandOk_rejudge (s : State) : s.rejudge.DemandOk := by
  have hsettled : (s.settle .p).DemandOk := by
    unfold State.settle
    split
    next h => exact demandOk_of_none fun a w p hp => by rw [show s.pPort.phase = .idle from h] at hp; cases hp
    · exact demandOk_judgeProducer s _
    · exact demandOk_judgeProducer s _
    next b r h => exact demandOk_of_none fun a w p hp => by rw [show s.pPort.phase = .issued b r from h] at hp; cases hp
  exact demandOk_of_eq hsettled (rejudge_pPort s)
    ((rejudge_pages s).trans (portsOnly_settle s .p).pages.symm) (rejudge_copyQueue s)

/-- A judgement of the consumer reaches neither the producer's handler nor the Copy Queue. -/
theorem demandOk_judgeConsumer {s : State} (h : s.DemandOk) (a : Access) : (s.judgeAccess .c a).DemandOk := by
  refine demandOk_of_eq h (port_judgeAccess_ne s (x := .c) (y := .p) (by decide) a) (portsOnly_judgeAccess s .c a).pages ?_
  have hj : s.judgeAccess .c a = s.takeJudgement .c a (s.judge .c a) := rfl
  rw [hj]
  cases hjudge : s.judge .c a with
  | go r => rfl
  | hold why w p => exact absurd hjudge (judge_consumer_never_holds s a why w p)
  | refuse e => exact record_copyQueue _ e

theorem demandOk_refuseAccess {s : State} (h : s.DemandOk) (x : Port) (a : Access) : (s.refuseAccess x a).DemandOk := by
  cases x with
  | p => exact demandOk_of_none nofun
  | c => exact demandOk_of_eq h

theorem demandOk_change {o : Bool} {s t : State} (h : s.DemandOk) (c : Change o s t) : t.DemandOk := by
  cases c with
  | unlawed => exact demandOk_of_eq h
  | inputs => exact demandOk_of_eq h
  | freed => exact demandOk_of_eq h
  | mgmt => exact demandOk_of_eq h
  | timer => exact demandOk_of_eq h
  | freeze => exact demandOk_of_eq h
  | record e => exact demandOk_of_eq h (record_pPort s e) (record_pages s e) (record_copyQueue s e)
  | pop => exact demandOk_of_eq h
  | evmask => exact demandOk_of_eq h
  | limit => exact demandOk_of_eq h
  | holdMax => exact demandOk_of_eq h
  | descriptor => exact demandOk_of_eq h
  | judge x a =>
    cases x with
    | p => exact demandOk_judgeProducer s a
    | c => exact demandOk_judgeConsumer h a
  | misformed x a => exact demandOk_refuseAccess h x a
  | timeOut a => exact demandOk_refuseAccess (s := s.clearHold .p) (demandOk_of_eq h) .p a
  | grant => exact demandOk_rejudge _
  | response => exact demandOk_rejudge _
  | deliver => exact demandOk_rejudge _
  | enable => exact demandOk_rejudge _
  | drain => exact demandOk_rejudge _
  | disable => exact demandOk_rejudge _
  | resync => exact demandOk_rejudge _
  | disarm => exact demandOk_rejudge _
  | engineReset => exact demandOk_rejudge _
  | hardReset => exact demandOk_of_none nofun

/-- Settles O56: every piece of a step keeps each of the three laws. -/
theorem portAndJudgementLawsAreKept : Obligations.PortAndJudgementLawsAreKept :=
  ⟨fun _ _ hs h => kept_of_step portsOk_change hs h, fun _ _ hs h => kept_of_step judgedOk_change hs h,
    fun _ _ hs h => kept_of_step demandOk_change hs h⟩

end Sys2Proof.Laws
end

section
/-! The M-port and its holder (R133, R135) and the pending flip (R100, R103): every piece of a step keeps their laws,
that of the M-port together with what the Copy Engine's phase says of its burst. -/

namespace Sys2Proof.Laws

open Sys2Proof Sys2Proof.Machine

/-! ## What is ISSUED -/

theorem judgedPhase_not_issued (a b : Access) (j : Judgement) (r : Resolution) : judgedPhase a j ≠ .issued b r := by
  cases j <;> nofun

/-- R29: judging an access issues none and ends none. -/
theorem issued_judgeAccess {s : State} {x : Port} (h : ∀ b r, s.phaseOf x ≠ .issued b r) (a : Access) (y : Port)
    (b : Access) (r : Resolution) : (s.judgeAccess x a).phaseOf y = .issued b r ↔ s.phaseOf y = .issued b r := by
  by_cases hy : y = x
  · subst hy
    rw [show (s.judgeAccess y a).phaseOf y = judgedPhase a (s.judge y a) from phaseOf_takeJudgement _ y a _]
    exact ⟨fun e => absurd e (judgedPhase_not_issued _ _ _ _), fun e => absurd e (h b r)⟩
  · rw [show (s.judgeAccess x a).phaseOf y = s.phaseOf y from congrArg PortState.phase (port_judgeAccess_ne s hy a)]

theorem issued_settle (s : State) (x y : Port) (b : Access) (r : Resolution) :
    (s.settle x).phaseOf y = .issued b r ↔ s.phaseOf y = .issued b r := by
  unfold State.settle
  split
  · rfl
  next a q hp => exact issued_judgeAccess (fun _ _ e => by rw [hp] at e; cases e) a y b r
  next a why w p hp => exact issued_judgeAccess (fun _ _ e => by rw [hp] at e; cases e) a y b r
  · rfl

theorem issued_rejudge (s : State) (y : Port) (b : Access) (r : Resolution) :
    s.rejudge.phaseOf y = .issued b r ↔ s.phaseOf y = .issued b r := by
  have hcount : ∀ n, ({ s with freeCount := n } : State).phaseOf y = s.phaseOf y := fun n => by cases y <;> rfl
  rcases rejudge_cases s with ⟨n, hr⟩ | ⟨n, hr⟩ <;> rw [hr, issued_settle, issued_settle, hcount]

/-- A handler made IDLE that held no ISSUED access. -/
theorem issued_refuseAccess {s : State} {x : Port} (h : ∀ b r, s.phaseOf x ≠ .issued b r) (a : Access) (y : Port)
    (b : Access) (r : Resolution) : (s.refuseAccess x a).phaseOf y = .issued b r ↔ s.phaseOf y = .issued b r := by
  rw [refuseAccess_eq]
  by_cases hy : y = x
  · subst hy
    rw [phaseOf_setPort_same]
    exact ⟨nofun, fun e => absurd e (h b r)⟩
  · rw [phaseOf_setPort_ne s _ hy]

theorem issued_holdBoundary (s : State) (taken : Fin 8 → Bool) (y : Port) (b : Access) (r : Resolution) :
    (s.holdBoundary taken).phaseOf y = .issued b r ↔ s.phaseOf y = .issued b r := by
  unfold State.holdBoundary
  split
  next a w p hheld =>
    have hnot : ∀ b r, s.phaseOf .p ≠ .issued b r := fun b r e => by
      rw [show s.phaseOf .p = .held a .sealed w p from hheld] at e; cases e
    split
    · rfl
    · split
      · show ((State.refuseAccess _ .p a).record _).phaseOf y = _ ↔ _
        rw [phaseOf_record]
        exact issued_refuseAccess (s := s.clearHold .p) (x := .p) hnot a y b r
      · cases y <;> rfl
  · rfl

theorem issued_deliver (s : State) (y : Port) (b : Access) (r : Resolution) :
    s.deliver.phaseOf y = .issued b r ↔ s.phaseOf y = .issued b r := by
  unfold State.deliver
  rw [issued_rejudge, issued_holdBoundary, (handlersSame_of_commitOnly (commitOnly_judgeGroups s)).phaseOf]

theorem issued_dropHeld (s : State) (y : Port) (b : Access) (r : Resolution) :
    s.dropHeld.phaseOf y = .issued b r ↔ s.phaseOf y = .issued b r := by
  unfold State.dropHeld
  split
  next a why w p hheld =>
    exact issued_refuseAccess (fun b r e => by
      rw [show s.phaseOf .p = .held a why w p from hheld] at e; cases e) a y b r
  · rfl

/-! ## The Copy Engine -/

/-- R113: the engine is IDLE exactly when it has no page, and then has no burst issued and no pair. -/
structure EngineOk (e : Engine) : Prop where
  idle : e.phase = .idle ↔ e.page = none
  quiet : e.phase = .idle → e.issued = false ∧ e.pair = 0

theorem engineOk_of_pagesOk {s : State} (h : s.PagesOk) : EngineOk s.engine := ⟨h.engineIdle, h.notIssued⟩

theorem engineOk_reset : EngineOk Engine.reset := ⟨⟨fun _ => rfl, fun _ => rfl⟩, fun _ => ⟨rfl, rfl⟩⟩

/-- An engine that has a page is at work. -/
theorem engineOk_busy {e : Engine} {p : Fin 512} (hphase : e.phase ≠ .idle) (hpage : e.page = some p) : EngineOk e :=
  ⟨⟨fun h => absurd h hphase, fun h => by rw [hpage] at h; cases h⟩, fun h => absurd h hphase⟩

theorem engine_page_of_busy {e : Engine} (h : EngineOk e) (hphase : e.phase ≠ .idle) : ∃ p, e.page = some p :=
  Option.ne_none_iff_exists'.1 fun hnone => hphase (h.idle.2 hnone)

theorem engineOk_grantEngine {s : State} (h : EngineOk s.engine) : EngineOk s.grantEngine.engine := by
  unfold State.grantEngine
  split
  · unfold State.startCopy
    split
    · exact h
    next p rest _ => exact engineOk_busy (p := p) nofun rfl
  next hphase =>
    obtain ⟨p, hp⟩ := engine_page_of_busy h (by rw [hphase]; decide)
    exact engineOk_busy (p := p) (by show s.engine.phase ≠ .idle; rw [hphase]; decide) hp
  next hphase =>
    obtain ⟨p, hp⟩ := engine_page_of_busy h (by rw [hphase]; decide)
    exact engineOk_busy (p := p) (by show s.engine.phase ≠ .idle; rw [hphase]; decide) hp

theorem checkReady_engine (s : State) (w : Fin 8) : (s.checkReady w).engine = s.engine := by
  unfold State.checkReady
  split
  · exact record_engine _ _
  · rfl

theorem attemptFailed_engine (s : State) (w : Fin 8) (p : Fin 512) : (s.attemptFailed w p).engine = s.engine := by
  unfold State.attemptFailed
  dsimp only
  split <;> exact record_engine _ _

/-- R117: the end of a copy leaves the engine IDLE. -/
theorem copyEndsWell_engine (s : State) (p : Fin 512) : (s.copyEndsWell p).engine = Engine.reset := by
  unfold State.copyEndsWell
  dsimp only
  split
  · exact checkReady_engine _ _
  · exact record_engine _ _
  · rfl

theorem copyFails_engine (s : State) (p : Fin 512) : (s.copyFails p).engine = Engine.reset := by
  unfold State.copyFails
  dsimp only
  split
  · rw [checkReady_engine, attemptFailed_engine]; exact record_engine _ _
  · exact (record_engine _ _).trans (record_engine _ _)
  · exact record_engine _ _

/-- R115, R117, R122: after its response the engine has no burst issued. -/
theorem engine_copyResponse {s : State} (h : EngineOk s.engine) (r : BusResp) (d : List Word) :
    EngineOk (s.copyResponse r d).engine ∧ (s.copyResponse r d).engine.issued = false := by
  unfold State.copyResponse
  split
  next hnone => exact ⟨h, (h.quiet (h.idle.2 hnone)).1⟩
  next p hp =>
    split
    · unfold State.copyOkay
      dsimp only
      split
      next hphase => exact ⟨h, (h.quiet hphase).1⟩
      · exact ⟨engineOk_busy (p := p) nofun hp, rfl⟩
      · split
        · exact ⟨engineOk_busy (p := p) nofun hp, rfl⟩
        · rw [copyEndsWell_engine]; exact ⟨engineOk_reset, rfl⟩
    · rw [copyFails_engine]; exact ⟨engineOk_reset, rfl⟩

theorem engine_takeMarker (s : State) (a : Access) (w : Fin 8) (m : Marker) : (s.takeMarker a w m).engine = s.engine := by
  cases m with
  | commit =>
    show (s.commitMarker w _).engine = _
    unfold State.commitMarker
    dsimp only
    split
    · split
      · exact record_engine _ _
      · rfl
    · rfl
    · rfl
  | leaseOpen =>
    show (s.leaseOpen w).engine = _
    unfold State.leaseOpen
    split
    · rfl
    · rfl
    · exact record_engine _ _
  | leaseClose =>
    show (s.leaseClose w).engine = _
    unfold State.leaseClose
    split
    · exact judgeClose_engine _ _
    · rfl
    · exact record_engine _ _

theorem engine_grantEffect (s : State) (a : Access) (r : Resolution) : (s.grantEffect a r).engine = s.engine := by
  unfold State.grantEffect
  split
  · exact engine_takeMarker _ _ _ _
  · rfl
  · rfl
  · rfl

theorem engine_endAccess (s : State) (x : Port) (r : BusResp) (d : List Word) :
    (s.endAccess x r d).engine = s.engine := by
  unfold State.endAccess
  split
  next a res _ =>
    dsimp only
    split
    · rw [endWrite_eq]; exact setPort_engine s x _
    · split
      · exact (record_engine _ _).trans (setPort_engine s x _)
      · exact setPort_engine s x _
  · rfl

theorem engine_flipAfter (s : State) (q : Requester) : (s.flipAfter q).engine = s.engine := by
  unfold State.flipAfter
  split
  · exact flip_engine _ _
  · exact flip_engine _ _
  · rfl
  · rfl

theorem engine_grantPort (s : State) (x : Port) (q : Requester) : (s.grantPort x q).engine = s.engine := by
  unfold State.grantPort
  split
  · rw [engine_grantEffect]; exact setPort_engine s x _
  · rfl

/-! ## The M-port -/

/-- R133: the M-port presents the access that a handler has ISSUED. -/
def Presents (s : State) (x : Port) (q : Requester) : Prop :=
  ∀ b, s.mport = .busy q b ↔ ∃ a r, s.phaseOf x = .issued a r ∧ b = { a with addr := r.addr }

theorem arbiterOk_of_eq {s t : State} (h : s.ArbiterOk)
    (hissued : ∀ x a r, t.phaseOf x = .issued a r ↔ s.phaseOf x = .issued a r)
    (hm : t.mport = s.mport := by rfl) (he : t.engine = s.engine := by rfl) (hf : t.freed = s.freed := by rfl)
    (hn : t.streak = s.streak := by rfl) : t.ArbiterOk where
  consumer b := by
    rw [hm, h.consumer b]
    exact exists_congr fun a => exists_congr fun r => and_congr_left fun _ => (hissued .c a r).symm
  producer b := by
    rw [hm, h.producer b]
    exact exists_congr fun a => exists_congr fun r => and_congr_left fun _ => (hissued .p a r).symm
  copy := by rw [he, hm]; exact h.copy
  freed := by rw [hf, hm]; exact h.freed
  streak := by rw [hn]; exact h.streak

theorem issued_of_phaseOf {s t : State} (hp : t.pPort = s.pPort) (hc : t.cPort = s.cPort) (x : Port) (a : Access)
    (r : Resolution) : t.phaseOf x = .issued a r ↔ s.phaseOf x = .issued a r := by
  cases x
  · exact iff_of_eq (congrArg (PortState.phase · = _) hp)
  · exact iff_of_eq (congrArg (PortState.phase · = _) hc)

/-- Pieces that leave the handlers and the arbiter alone. -/
theorem arbiterOk_of_same {s t : State} (h : s.ArbiterOk) (hp : t.pPort = s.pPort := by rfl)
    (hc : t.cPort = s.cPort := by rfl) (hm : t.mport = s.mport := by rfl) (he : t.engine = s.engine := by rfl)
    (hf : t.freed = s.freed := by rfl) (hn : t.streak = s.streak := by rfl) : t.ArbiterOk :=
  arbiterOk_of_eq h (issued_of_phaseOf hp hc) hm he hf hn

theorem arbiterOk_of_handlersSame {s t : State} (h : s.ArbiterOk) (k : HandlersSame s t) (he : t.engine = s.engine) :
    t.ArbiterOk := arbiterOk_of_same h k.pPort k.cPort k.mport he k.freed k.streak

theorem arbiterOk_rejudge {s : State} (h : s.ArbiterOk) : s.rejudge.ArbiterOk :=
  arbiterOk_of_eq h (issued_rejudge s) (rejudge_mport s) (rejudge_engine s) (rejudge_freed s) (rejudge_streak s)

/-- R133: on a FREE M-port no handler's access is ISSUED, and no copy burst is. -/
theorem none_issued {s : State} (h : s.ArbiterOk) (hfree : s.mport = .free) :
    (∀ x a r, s.phaseOf x ≠ .issued a r) ∧ s.engine.issued = false := by
  refine ⟨fun x a r hphase => ?_, ?_⟩
  · cases x with
    | p =>
      have hbusy := (h.producer _).2 ⟨a, r, hphase, rfl⟩
      rw [hfree] at hbusy; cases hbusy
    | c =>
      have hbusy := (h.consumer _).2 ⟨a, r, hphase, rfl⟩
      rw [hfree] at hbusy; cases hbusy
  · rw [Bool.eq_false_iff]
    intro hissued
    obtain ⟨b, hbusy⟩ := h.copy hissued
    rw [hfree] at hbusy; cases hbusy

/-- R133, R136: the requester granted is one whose request stands. -/
theorem decision_stands {s : State} {q : Requester} (h : s.decision = some q) : s.mport = .free ∧
    ((q = .consumer ∧ s.portRequests .c = true) ∨ (q = .producer ∧ s.portRequests .p = true) ∨
      (q = .copy ∧ s.engineRequests = true)) := by
  have hfree : s.mport = .free := mport_free_of_decision (by rw [h]; rfl)
  refine ⟨hfree, ?_⟩
  unfold State.decision at h
  rw [hfree] at h
  exact chooseGrant_stands h

theorem portRequests_iff (s : State) (x : Port) : s.portRequests x = true ↔ ∃ a r, s.phaseOf x = .pending a r := by
  unfold State.portRequests
  split
  next a r hphase => simp [hphase]
  next hphase =>
    constructor
    · nofun
    · rintro ⟨a, r, h⟩; exact absurd h (hphase a r)

theorem grantPort_pending {s : State} {x : Port} {a : Access} {r : Resolution} (h : s.phaseOf x = .pending a r)
    (q : Requester) :
    s.grantPort x q = ((s.setPhase x (.issued a r)).issue q { a with addr := r.addr }).grantEffect a r := by
  unfold State.grantPort
  rw [h]

/-- The name of a handler at the arbiter. -/
def requesterOf : Port → Requester
  | .p => .producer
  | .c => .consumer

theorem requesterOf_ne {x y : Port} (h : y ≠ x) : requesterOf y ≠ requesterOf x := by
  cases x <;> cases y <;> simp_all [requesterOf]

/-- R133: the law by handler. -/
theorem presents_of_arbiterOk {s : State} (h : s.ArbiterOk) (x : Port) : Presents s x (requesterOf x) := by
  cases x
  · exact h.producer
  · exact h.consumer

theorem presents_busy_other {s : State} {q : Requester} {m : Access} (h : s.mport = .busy q m) (x : Port)
    (hq : q ≠ requesterOf x) (hnot : ∀ a r, s.phaseOf x ≠ .issued a r) : Presents s x (requesterOf x) := fun b => by
  rw [h]
  exact ⟨fun e => absurd (MPort.busy.inj e).1 hq, fun ⟨a, r, e, _⟩ => absurd e (hnot a r)⟩

theorem arbiterOk_of_presents {s : State} (h : ∀ x, Presents s x (requesterOf x))
    (hcopy : s.engine.issued = true → ∃ b, s.mport = .busy .copy b) (hfreed : s.freed = true → s.mport = .free)
    (hstreak : s.streak ≤ 8) : s.ArbiterOk := ⟨h .c, h .p, hcopy, hfreed, hstreak⟩

/-- R139: a grant to a port handler. -/
theorem arbiterOk_issued {s : State} (h : s.ArbiterOk) (hfree : s.mport = .free) (x : Port) (a : Access) (r : Resolution) :
    ((s.setPhase x (.issued a r)).issue (requesterOf x) { a with addr := r.addr }).ArbiterOk := by
  obtain ⟨hnone, hburst⟩ := none_issued h hfree
  have hphase : ∀ y, ((s.setPhase x (.issued a r)).issue (requesterOf x) { a with addr := r.addr }).phaseOf y =
      (s.setPort x { phase := .issued a r, resp := none }).phaseOf y := fun y => by cases y <;> rfl
  refine arbiterOk_of_presents (fun y => ?_) (fun e => ?_) (fun e => absurd e Bool.false_ne_true) ?_
  · by_cases hy : y = x
    · subst hy
      intro b
      rw [hphase, phaseOf_setPort_same]
      show MPort.busy _ _ = _ ↔ _
      constructor
      · intro e
        obtain ⟨-, rfl⟩ := MPort.busy.inj e
        exact ⟨a, r, rfl, rfl⟩
      · rintro ⟨a', r', e, rfl⟩
        cases e; rfl
    · refine presents_busy_other (m := { a with addr := r.addr }) rfl y (requesterOf_ne (Ne.symm hy)) fun b q e => ?_
      rw [hphase, phaseOf_setPort_ne s _ hy] at e
      exact hnone y b q e
  · have hengine : ((s.setPhase x (.issued a r)).issue (requesterOf x) { a with addr := r.addr }).engine = s.engine :=
      setPort_engine s x _
    rw [hengine, hburst] at e; cases e
  · show (s.setPort x _).streak ≤ 8
    rw [setPort_streak]; exact h.streak

theorem arbiterOk_grantPort {s : State} (h : s.ArbiterOk) (hfree : s.mport = .free) {x : Port}
    (hreq : s.portRequests x = true) : (s.grantPort x (requesterOf x)).ArbiterOk := by
  obtain ⟨a, r, hphase⟩ := (portRequests_iff s x).1 hreq
  rw [grantPort_pending hphase]
  exact arbiterOk_of_handlersSame (arbiterOk_issued h hfree x a r) (handlersSame_grantEffect _ a r)
    (engine_grantEffect _ a r)

theorem arbiterOk_noteGrant {s : State} (h : s.ArbiterOk) (q : Requester) : (s.noteGrant q).ArbiterOk := by
  cases q with
  | consumer => exact ⟨h.consumer, h.producer, h.copy, h.freed, Nat.min_le_right _ _⟩
  | producer => exact ⟨h.consumer, h.producer, h.copy, h.freed, Nat.zero_le _⟩
  | copy => exact ⟨h.consumer, h.producer, h.copy, h.freed, Nat.zero_le _⟩

theorem arbiterOk_grantTo {s : State} (h : s.ArbiterOk) {q : Requester} (hq : s.decision = some q) :
    (s.grantTo q).ArbiterOk := by
  obtain ⟨hfree, hstands⟩ := decision_stands hq
  have hnoted := arbiterOk_noteGrant h q
  rcases hstands with ⟨rfl, hreq⟩ | ⟨rfl, hreq⟩ | ⟨rfl, -⟩
  · exact arbiterOk_grantPort (x := .c) hnoted hfree hreq
  · exact arbiterOk_grantPort (x := .p) hnoted hfree hreq
  · obtain ⟨hnone, -⟩ := none_issued hnoted hfree
    show (State.issue _ .copy _).ArbiterOk
    rw [grantEngine_eq]
    refine arbiterOk_of_presents (fun x => presents_busy_other rfl x (by cases x <;> nofun) fun a r => ?_)
      (fun _ => ⟨_, rfl⟩) (fun e => absurd e Bool.false_ne_true) hnoted.streak
    cases x
    · exact hnone .p a r
    · exact hnone .c a r

/-- R140: the M-port is freed and its holder has nothing ISSUED. -/
theorem arbiterOk_freed {s : State} (hfree : s.mport = .free) (hnone : ∀ x a r, s.phaseOf x ≠ .issued a r)
    (hburst : s.engine.issued = false) (hstreak : s.streak ≤ 8) : s.ArbiterOk := by
  refine arbiterOk_of_presents (fun x b => ?_) (fun e => by rw [hburst] at e; cases e) (fun _ => hfree) hstreak
  rw [hfree]
  exact ⟨nofun, fun ⟨a, r, e, _⟩ => absurd e (hnone x a r)⟩

/-- R133: whoever else holds the M-port, a handler has nothing ISSUED. -/
theorem not_issued_of_busy {s : State} (h : s.ArbiterOk) {q : Requester} {m : Access} (hbusy : s.mport = .busy q m)
    {x : Port} (hq : q ≠ requesterOf x) (a : Access) (r : Resolution) : s.phaseOf x ≠ .issued a r := fun hphase => by
  have hown := (presents_of_arbiterOk h x _).2 ⟨a, r, hphase, rfl⟩
  rw [hbusy] at hown
  exact hq (MPort.busy.inj hown).1

theorem no_burst_of_busy {s : State} (h : s.ArbiterOk) {q : Requester} {m : Access} (hbusy : s.mport = .busy q m)
    (hq : q ≠ .copy) : s.engine.issued = false := by
  rw [Bool.eq_false_iff]
  intro hissued
  obtain ⟨b, hcopy⟩ := h.copy hissued
  rw [hbusy] at hcopy
  exact hq (MPort.busy.inj hcopy).1

/-- R27: a handler has nothing ISSUED once its access has ended. -/
theorem not_issued_endAccess (s : State) (x : Port) (r : BusResp) (d : List Word) (a : Access) (res : Resolution) :
    (s.endAccess x r d).phaseOf x ≠ .issued a res := by
  by_cases hissued : ∃ a res, s.phaseOf x = .issued a res
  · obtain ⟨b, q, hphase⟩ := hissued
    rw [(handlersSame_endAccess hphase r d).phaseOf]
    show (s.setPort x _).phaseOf x ≠ _
    rw [phaseOf_setPort_same]
    nofun
  · rw [endAccess_of_not_issued fun a res e => hissued ⟨a, res, e⟩]
    exact fun e => hissued ⟨a, res, e⟩

theorem endAccess_other (s : State) {x y : Port} (hne : y ≠ x) (r : BusResp) (d : List Word) :
    (s.endAccess x r d).phaseOf y = s.phaseOf y := by
  by_cases hissued : ∃ a res, s.phaseOf x = .issued a res
  · obtain ⟨b, q, hphase⟩ := hissued
    rw [(handlersSame_endAccess hphase r d).phaseOf]
    exact phaseOf_setPort_ne s _ hne
  · rw [endAccess_of_not_issued fun a res e => hissued ⟨a, res, e⟩]

theorem endAccess_arbiter (s : State) (x : Port) (r : BusResp) (d : List Word) :
    (s.endAccess x r d).mport = s.mport ∧ (s.endAccess x r d).streak = s.streak := by
  by_cases hissued : ∃ a res, s.phaseOf x = .issued a res
  · obtain ⟨b, q, hphase⟩ := hissued
    have hsame := handlersSame_endAccess hphase r d
    exact ⟨hsame.mport.trans (setPort_mport s x _), hsame.streak.trans (setPort_streak s x _)⟩
  · rw [endAccess_of_not_issued fun a res e => hissued ⟨a, res, e⟩]
    exact ⟨rfl, rfl⟩

/-- R140: the holder of the M-port takes its response, and nothing is ISSUED. -/
theorem arbiterOk_holderStep {s : State} (h : s.ArbiterOk) (he : EngineOk s.engine) {q : Requester} {m : Access}
    (hbusy : s.mport = .busy q m) (r : BusResp) (d : List Word) :
    (({ s with mport := .free } : State).holderStep q r d).ArbiterOk := by
  have hport : ∀ x, q = requesterOf x → (State.endAccess { s with mport := .free } x r d).ArbiterOk := fun x hq => by
    obtain ⟨hmport, hstreak⟩ := endAccess_arbiter { s with mport := .free } x r d
    refine arbiterOk_freed hmport (fun y a res => ?_) ?_ (hstreak.symm ▸ h.streak)
    · by_cases hy : y = x
      · subst hy; exact not_issued_endAccess _ y r d a res
      · rw [endAccess_other _ hy]
        have hother := not_issued_of_busy h hbusy (x := y) (hq ▸ requesterOf_ne (Ne.symm hy)) a res
        cases y <;> exact hother
    · rw [engine_endAccess]
      have hne : q ≠ .copy := by rw [hq]; cases x <;> nofun
      exact no_burst_of_busy (s := s) h hbusy hne
  cases q with
  | consumer => exact hport .c rfl
  | producer => exact hport .p rfl
  | copy =>
    have hsame := handlersSame_copyResponse { s with mport := .free } r d
    refine arbiterOk_freed hsame.mport (fun x a res => ?_) (engine_copyResponse (s := { s with mport := .free }) he r d).2
      (hsame.streak.symm ▸ h.streak)
    show (State.copyResponse _ r d).phaseOf x ≠ _
    rw [hsame.phaseOf]
    have hnot := not_issued_of_busy h hbusy (x := x) (by cases x <;> nofun) a res
    cases x <;> exact hnot

theorem arbiterOk_dropHeld {s : State} (h : s.ArbiterOk) : s.dropHeld.ArbiterOk := by
  refine arbiterOk_of_eq h (issued_dropHeld s) ?_ ?_ ?_ ?_ <;> unfold State.dropHeld <;> split <;> rfl

theorem arbiterOk_engineReset {s : State} (h : s.ArbiterOk) : s.engineReset.ArbiterOk := by
  have hdropped := arbiterOk_dropHeld h
  exact arbiterOk_rejudge ⟨hdropped.consumer, hdropped.producer, fun e => absurd e Bool.false_ne_true,
    fun e => absurd e Bool.false_ne_true, Nat.zero_le 8⟩

/-- The law of the M-port with what the engine's phase says. -/
structure ArbiterAndEngineOk (s : State) : Prop where
  arbiter : s.ArbiterOk
  engine : EngineOk s.engine

theorem arbiterAndEngineOk_change {o : Bool} {s t : State} (h : ArbiterAndEngineOk s) (c : Change o s t) : ArbiterAndEngineOk t := by
  obtain ⟨ha, he⟩ := h
  cases c with
  | unlawed => exact ⟨arbiterOk_of_same ha, he⟩
  | inputs => exact ⟨arbiterOk_of_same ha, he⟩
  | freed b hb => exact ⟨⟨ha.consumer, ha.producer, ha.copy, hb, ha.streak⟩, he⟩
  | mgmt => exact ⟨arbiterOk_of_same ha, he⟩
  | timer => exact ⟨arbiterOk_of_same ha, he⟩
  | freeze => exact ⟨arbiterOk_of_same ha, he⟩
  | record e =>
    exact ⟨arbiterOk_of_handlersSame ha (handlersSame_record s e) (record_engine s e), (record_engine s e).symm ▸ he⟩
  | pop => exact ⟨arbiterOk_of_same ha, he⟩
  | evmask => exact ⟨arbiterOk_of_same ha, he⟩
  | limit => exact ⟨arbiterOk_of_same ha, he⟩
  | holdMax => exact ⟨arbiterOk_of_same ha, he⟩
  | descriptor => exact ⟨arbiterOk_of_same ha, he⟩
  | judge x a hidle =>
    have honly := portsOnly_judgeAccess s x a
    exact ⟨arbiterOk_of_eq ha (issued_judgeAccess (fun _ _ e => by rw [hidle] at e; cases e) a) honly.mport honly.engine
      honly.freed honly.streak, honly.engine.symm ▸ he⟩
  | misformed x a hidle =>
    have honly := portsOnly_setPort s x { phase := .idle, resp := some { resp := .error, rdata := readBeats a [] } }
    exact ⟨arbiterOk_of_eq ha (issued_refuseAccess (fun _ _ e => by rw [hidle] at e; cases e) a) honly.mport honly.engine
      honly.freed honly.streak, honly.engine.symm ▸ he⟩
  | timeOut a w p hheld =>
    refine ⟨arbiterOk_of_eq ha (issued_refuseAccess (s := s.clearHold .p) (fun b r e => ?_) a), he⟩
    rw [show (s.clearHold .p).phaseOf .p = .held a .sealed w p from hheld] at e; cases e
  | grant q hq =>
    refine ⟨arbiterOk_rejudge (arbiterOk_grantTo ha hq), ?_⟩
    rw [rejudge_engine]
    cases q with
    | consumer =>
      rw [show (s.grantTo .consumer).engine = s.engine from engine_grantPort (s.noteGrant .consumer) .c .consumer]
      exact he
    | producer =>
      rw [show (s.grantTo .producer).engine = s.engine from engine_grantPort (s.noteGrant .producer) .p .producer]
      exact he
    | copy => exact engineOk_grantEngine (s := s.noteGrant .copy) he
  | response q m r d hbusy =>
    have hflip := handlersSame_flipAfter (({ s with mport := .free } : State).holderStep q r d) q
    have hengine := engine_flipAfter (({ s with mport := .free } : State).holderStep q r d) q
    refine ⟨arbiterOk_rejudge (arbiterOk_of_handlersSame (arbiterOk_holderStep ha he hbusy r d) hflip hengine), ?_⟩
    rw [rejudge_engine, hengine]
    cases q with
    | consumer => exact (engine_endAccess { s with mport := .free } .c r d).symm ▸ he
    | producer => exact (engine_endAccess { s with mport := .free } .p r d).symm ▸ he
    | copy => exact (engine_copyResponse (s := { s with mport := .free }) he r d).1
  | deliver =>
    exact ⟨arbiterOk_of_eq ha (issued_deliver s) (deliver_mport s) (deliver_engine s) (deliver_freed s)
      (deliver_streak s), (deliver_engine s).symm ▸ he⟩
  | enable => exact ⟨arbiterOk_rejudge (arbiterOk_of_same ha), (rejudge_engine _).symm ▸ he⟩
  | drain => exact ⟨arbiterOk_rejudge (arbiterOk_of_same ha), (rejudge_engine _).symm ▸ he⟩
  | disable =>
    refine ⟨arbiterOk_rejudge (arbiterOk_of_handlersSame (arbiterOk_of_same ha) (handlersSame_record _ _)
      (record_engine _ _)), ?_⟩
    rw [rejudge_engine, record_engine]; exact he
  | resync => exact ⟨arbiterOk_rejudge (arbiterOk_of_same ha), (rejudge_engine _).symm ▸ he⟩
  | disarm =>
    rw [disarmed_eq]
    exact ⟨arbiterOk_rejudge (arbiterOk_of_same ha), (rejudge_engine _).symm ▸ he⟩
  | engineReset => exact ⟨arbiterOk_engineReset ha, (rejudge_engine _).symm ▸ engineOk_reset⟩
  | hardReset => exact ⟨arbiterOk_freed rfl (fun x _ _ => by cases x <;> nofun) rfl (Nat.zero_le 8), engineOk_reset⟩

end Sys2Proof.Laws
end

section
/-! The pending flip (R100, R101, R103): what a commit that is taken leaves of the windows' service, and that every piece
of a step keeps the law of the pending flip. Settles O57. -/

namespace Sys2Proof.Laws

open Sys2Proof Sys2Proof.Machine

/-! ## What commits and markers leave of a window -/

/-- The windows keep their descriptors and their enable states. -/
structure ServiceSame (s t : State) : Prop where
  desc : ∀ w, t.desc w = s.desc w
  enable : ∀ w, (t.window w).enable = (s.window w).enable

theorem ServiceSame.refl (s : State) : ServiceSame s s := ⟨fun _ => rfl, fun _ => rfl⟩

theorem ServiceSame.trans {s t u : State} (h : ServiceSame s t) (k : ServiceSame t u) : ServiceSame s u :=
  ⟨fun w => (k.desc w).trans (h.desc w), fun w => (k.enable w).trans (h.enable w)⟩

theorem serviceSame_of_windows {s t : State} (h : t.windows = s.windows := by rfl) : ServiceSame s t :=
  ⟨fun w => congrArg Window.desc (window_congr h w), fun w => congrArg Window.enable (window_congr h w)⟩

theorem serviceSame_record (s : State) (e : Event) : ServiceSame s (s.record e) := serviceSame_of_windows (record_windows s e)

theorem serviceSame_of_window {s t : State} (h : ∀ w, (t.window w).desc = s.desc w ∧
    (t.window w).enable = (s.window w).enable) : ServiceSame s t := ⟨fun w => (h w).1, fun w => (h w).2⟩

theorem serviceSame_setWindow (s : State) (w : Fin 8) {x : Window} (hdesc : x.desc = s.desc w := by rfl)
    (henable : x.enable = (s.window w).enable := by rfl) : ServiceSame s (s.setWindow w x) :=
  serviceSame_of_window fun v => by
    rw [window_setWindow]
    split
    next h => rw [h]; exact ⟨hdesc, henable⟩
    · exact ⟨rfl, rfl⟩

/-- A write of one window that keeps its descriptor and its enable state, with fields that no window is of. -/
theorem serviceSame_written {s t : State} (w : Fin 8) {x : Window} (hw : t.windows = s.windows.set w.val x := by rfl)
    (hdesc : x.desc = s.desc w := by rfl) (henable : x.enable = (s.window w).enable := by rfl) : ServiceSame s t :=
  (serviceSame_setWindow s w hdesc henable).trans (serviceSame_of_windows hw)

theorem ServiceSame.enabled {s t : State} (h : ServiceSame s t) (w : Fin 8) : t.enabled w = s.enabled w := by
  unfold State.enabled; rw [h.enable w]

theorem ServiceSame.isMember {s t : State} (h : ServiceSame s t) (g : Fin 4) (w : Fin 8) :
    t.isMember g w = s.isMember g w := isMember_congr h.desc h.enabled g w

theorem serviceSame_flip (s : State) (f : TakenCommit) : ServiceSame s (s.flip f) :=
  serviceSame_of_window fun w => by
    rw [flip_window]
    split <;> exact ⟨rfl, rfl⟩

theorem promoted_service (x : Window) : x.promoted.desc = x.desc ∧ x.promoted.enable = x.enable := by
  unfold Window.promoted
  split <;> exact ⟨rfl, rfl⟩

theorem serviceSame_judgeGroups (s : State) : ServiceSame s s.judgeGroups :=
  serviceSame_of_window fun w => by
    obtain ⟨hdesc, henable⟩ :
        s.judgeGroups.desc w = s.desc w ∧ (s.judgeGroups.window w).enable = (s.window w).enable := by
      by_cases h : ∃ g, s.isMember g w = true
      · obtain ⟨g, hg⟩ := h
        unfold State.desc
        rw [judgeGroups_member s g w hg, (promoted_service _).1, (promoted_service _).2]
        exact ⟨memberAfter_desc s g w, memberAfter_enable s g w⟩
      · unfold State.desc
        rw [judgeGroups_other s w fun g => Bool.eq_false_iff.2 fun hg => h ⟨g, hg⟩]
        exact promoted_service _
    exact ⟨hdesc, henable⟩

theorem serviceSame_checkReady (s : State) (w : Fin 8) : ServiceSame s (s.checkReady w) := by
  unfold State.checkReady
  split
  · exact (serviceSame_setWindow s w).trans (serviceSame_record _ _)
  · exact ServiceSame.refl s

theorem serviceSame_attemptFailed (s : State) (w : Fin 8) (p : Fin 512) : ServiceSame s (s.attemptFailed w p) := by
  unfold State.attemptFailed
  dsimp only
  split <;> exact serviceSame_of_windows (record_windows _ _)

/-! ## The pending flip -/

/-- R100, R101, R103: what the law says of the commit that is the pending flip. -/
structure FlipStands (s : State) (f : TakenCommit) : Prop where
  issued : ∃ x a r, s.phaseOf x = .issued a r
  idle : (s.group f.group).state = .idle
  member : ∀ w ∈ f.set, s.isMember f.group w = true
  ascending : f.set.Pairwise (· < ·)

theorem flipOk_iff (s : State) : s.FlipOk ↔ ∀ f, s.pendingFlip = some f → FlipStands s f := by
  refine forall_congr' fun f => imp_congr_right fun _ => ⟨?_, ?_⟩
  · rintro ⟨hissued, hidle, hmember, hascending⟩
    refine ⟨?_, hidle, hmember, hascending⟩
    rcases hissued with ⟨a, r, h⟩ | ⟨a, r, h⟩
    · exact ⟨.p, a, r, h⟩
    · exact ⟨.c, a, r, h⟩
  · rintro ⟨⟨x, a, r, h⟩, hidle, hmember, hascending⟩
    refine ⟨?_, hidle, hmember, hascending⟩
    cases x with
    | p => exact .inl ⟨a, r, h⟩
    | c => exact .inr ⟨a, r, h⟩

theorem flipOk_of_none {s : State} (h : s.pendingFlip = none) : s.FlipOk := fun f hf => by rw [h] at hf; cases hf

/-- What a change keeps for a pending flip to stand. -/
structure FlipFrame (s t : State) : Prop where
  issued : ∀ x a r, s.phaseOf x = .issued a r → t.phaseOf x = .issued a r
  idle : ∀ g, (s.group g).state = .idle → (t.group g).state = .idle
  member : ∀ g w, s.isMember g w = true → t.isMember g w = true

theorem flipStands_of_frame {s t : State} {f : TakenCommit} (h : FlipStands s f) (k : FlipFrame s t) : FlipStands t f := by
  obtain ⟨x, a, r, hissued⟩ := h.issued
  exact ⟨⟨x, a, r, k.issued x a r hissued⟩, k.idle _ h.idle, fun w hw => k.member _ w (h.member w hw), h.ascending⟩

theorem flipOk_of_frame {s t : State} (h : s.FlipOk) (k : FlipFrame s t) (hpending : t.pendingFlip = s.pendingFlip) :
    t.FlipOk := by
  rw [flipOk_iff] at h ⊢
  intro f hf
  exact flipStands_of_frame (h f (hpending ▸ hf)) k

theorem flipFrame_of_service {s t : State} (k : ServiceSame s t)
    (hissued : ∀ x a r, s.phaseOf x = .issued a r → t.phaseOf x = .issued a r)
    (hgroups : t.groups = s.groups) : FlipFrame s t :=
  ⟨hissued, fun g h => by rw [group_congr hgroups g]; exact h, fun g w h => by rw [k.isMember]; exact h⟩

theorem flipFrame_of_ports {s t : State} (k : PortsOnly s t)
    (hissued : ∀ x a r, s.phaseOf x = .issued a r → t.phaseOf x = .issued a r) : FlipFrame s t :=
  flipFrame_of_service (serviceSame_of_windows k.windows) hissued k.groups

theorem flipFrame_of_handlers {s t : State} (k : ServiceSame s t) (hsame : HandlersSame s t) (hgroups : t.groups = s.groups) :
    FlipFrame s t :=
  flipFrame_of_service k (fun x a r h => by rw [hsame.phaseOf]; exact h) hgroups

/-- A change of fields that the law of the pending flip does not read. -/
theorem flipOk_of_eq {s t : State} (h : s.FlipOk) (hw : t.windows = s.windows := by rfl) (hp : t.pPort = s.pPort := by rfl)
    (hc : t.cPort = s.cPort := by rfl) (hg : t.groups = s.groups := by rfl)
    (hf : t.pendingFlip = s.pendingFlip := by rfl) : t.FlipOk :=
  flipOk_of_frame h (flipFrame_of_service (serviceSame_of_windows hw)
    (fun x a r k => (issued_of_phaseOf hp hc x a r).2 k) hg) hf

theorem flipOk_rejudge {s : State} (h : s.FlipOk) : s.rejudge.FlipOk :=
  flipOk_of_frame h (flipFrame_of_ports (portsOnly_rejudge s) fun x a r k => (issued_rejudge s x a r).2 k)
    (rejudge_pendingFlip s)

theorem flipOk_record {s : State} (h : s.FlipOk) (e : Event) : (s.record e).FlipOk :=
  flipOk_of_eq h (record_windows s e) (record_pPort s e) (record_cPort s e) (record_groups s e) (record_pendingFlip s e)

theorem flipFrame_groupIdle (s : State) (g : Fin 4) : FlipFrame s (s.groupIdle g) := by
  refine ⟨fun x a r h => by cases x <;> exact h, fun k h => ?_, fun _ _ h => h⟩
  show ((s.setGroup g _).group k).state = .idle
  rw [group_setGroup]
  split
  · rfl
  · exact h

theorem flipFrame_flip (s : State) (f : TakenCommit) : FlipFrame s (s.flip f) :=
  flipFrame_of_handlers (serviceSame_flip s f) (handlersSame_of_commitOnly (commitOnly_flip s f)) (flip_groups s f)

theorem issued_of_issuedInto {s : State} {l : List (Fin 8)} (h : s.issuedInto l = true) :
    ∃ x a r, s.phaseOf x = .issued a r := by
  rcases Bool.or_eq_true_iff.1 (show (_ || _) = true from h) with h | h <;> dsimp only at h
  · split at h
    next a _ _ _ addr hphase => exact ⟨.p, a, _, hphase⟩
    · cases h
  · split at h
    next a _ _ _ addr hphase => exact ⟨.c, a, _, hphase⟩
    · cases h

theorem members_ascending (s : State) (g : Fin 4) : (s.members g).Pairwise (· < ·) :=
  List.Pairwise.filter _ (by decide)

/-- R100: the commit that becomes the pending flip stands. -/
theorem flipOk_takeCommit {s : State} (h : s.FlipOk) (g : Fin 4) (o : Origin) : (s.takeCommit g o).FlipOk := by
  have hidle := flipOk_of_frame h (flipFrame_groupIdle s g) rfl
  unfold State.takeCommit
  dsimp only
  split
  next hissued =>
    rw [flipOk_iff]
    intro f hf
    obtain rfl := Option.some.inj hf
    obtain ⟨x, a, r, hx⟩ := issued_of_issuedInto hissued
    refine ⟨⟨x, a, r, by cases x <;> exact hx⟩, ?_, fun w hw => ?_, (members_ascending s g).filter _⟩
    · show ((s.setGroup g _).group g).state = .idle
      rw [group_setGroup_same]
    · exact (mem_members s g w).1 (List.mem_filter.1 hw).1
  · exact flipOk_of_frame hidle (flipFrame_flip _ _) (flip_pendingFlip _ _)

theorem flipOk_judgeClose {s : State} (h : s.FlipOk) (g : Fin 4) : (s.judgeClose g).FlipOk := by
  unfold State.judgeClose
  split
  · exact h
  · split
    · exact flipOk_of_frame h (flipFrame_groupIdle s g) rfl
    · split
      · exact h
      · split
        · exact h
        · exact flipOk_takeCommit h g .close

theorem flipOk_setWindow {s : State} (h : s.FlipOk) (w : Fin 8) {x : Window} (hdesc : x.desc = s.desc w := by rfl)
    (henable : x.enable = (s.window w).enable := by rfl) : (s.setWindow w x).FlipOk :=
  flipOk_of_frame h (flipFrame_of_service (serviceSame_setWindow s w hdesc henable) (fun y a r k => by cases y <;> exact k) rfl)
    rfl

/-- A write of one window that keeps its service, with fields that the law does not read. -/
theorem flipOk_written {s t : State} (h : s.FlipOk) (w : Fin 8) {x : Window}
    (hw : t.windows = s.windows.set w.val x := by rfl) (hdesc : x.desc = s.desc w := by rfl)
    (henable : x.enable = (s.window w).enable := by rfl) (hp : t.pPort = s.pPort := by rfl)
    (hc : t.cPort = s.cPort := by rfl) (hg : t.groups = s.groups := by rfl)
    (hf : t.pendingFlip = s.pendingFlip := by rfl) : t.FlipOk :=
  flipOk_of_eq (flipOk_setWindow h w hdesc henable) hw hp hc hg hf

theorem flipOk_takeMarker {s : State} (h : s.FlipOk) (a : Access) (w : Fin 8) (m : Marker) :
    (s.takeMarker a w m).FlipOk := by
  cases m with
  | commit =>
    show (s.commitMarker w _).FlipOk
    unfold State.commitMarker
    dsimp only
    split
    · split
      · exact flipOk_record (flipOk_written h w) _
      · exact flipOk_written h w
    · exact flipOk_setWindow h w
    · exact flipOk_setWindow h w
  | leaseOpen =>
    show (s.leaseOpen w).FlipOk
    unfold State.leaseOpen
    split
    · exact flipOk_setWindow h w
    · exact flipOk_setWindow h w
    · exact flipOk_record h _
  | leaseClose =>
    show (s.leaseClose w).FlipOk
    unfold State.leaseClose
    split
    · exact flipOk_judgeClose (flipOk_setWindow h w) _
    · exact flipOk_setWindow h w
    · exact flipOk_record h _

/-! ## Grants and responses -/

/-- R100, R133: while the M-port is FREE no flip is pending. -/
theorem pendingFlip_none_of_free {s : State} (ha : s.ArbiterOk) (h : s.FlipOk) (hfree : s.mport = .free) :
    s.pendingFlip = none := by
  cases hf : s.pendingFlip with
  | none => rfl
  | some f =>
    obtain ⟨x, a, r, hx⟩ := ((flipOk_iff s).1 h f hf).issued
    exact absurd hx ((none_issued ha hfree).1 x a r)

theorem flipOk_grantPort {s : State} (h : s.pendingFlip = none) (x : Port) (q : Requester) : (s.grantPort x q).FlipOk := by
  unfold State.grantPort
  split
  next a r _ =>
    have hissued : ((s.setPhase x (.issued a r)).issue q { a with addr := r.addr }).FlipOk :=
      flipOk_of_none ((setPort_pendingFlip s x _).trans h)
    unfold State.grantEffect
    split
    · exact flipOk_takeMarker hissued _ _ _
    · exact hissued
    · exact hissued
    · exact hissued
  · exact flipOk_of_none h

theorem flipOk_grantTo {s : State} (h : s.pendingFlip = none) (q : Requester) : (s.grantTo q).FlipOk := by
  have hnoted : (s.noteGrant q).pendingFlip = none := by cases q <;> exact h
  cases q with
  | consumer => exact flipOk_grantPort hnoted _ _
  | producer => exact flipOk_grantPort hnoted _ _
  | copy =>
    refine flipOk_of_none (Eq.trans ?_ hnoted)
    show (State.grantEngine _).pendingFlip = _
    rw [grantEngine_eq]

/-- R103: after a port's response no flip is pending. -/
theorem flipAfter_port_pendingFlip (s : State) {q : Requester} (hq : q ≠ .copy) : (s.flipAfter q).pendingFlip = none := by
  unfold State.flipAfter
  split
  · exact flip_pendingFlip _ _
  · exact flip_pendingFlip _ _
  · exact absurd rfl hq
  next hnone => exact hnone

theorem flipAfter_copy (s : State) : s.flipAfter .copy = s := by
  unfold State.flipAfter
  cases s.pendingFlip <;> rfl

/-- R21: the end of a drain takes no window out of a group. -/
theorem member_endDrain (s : State) (w : Fin 8) (p : Fin 512) (hdrain : (s.window w).enable ≠ .enabled) (g : Fin 4)
    (v : Fin 8) (h : s.isMember g v = true) : (s.endDrain w p).isMember g v = true := by
  have henabled := isMember_enabled h
  have hne : v ≠ w := fun e => hdrain (by subst e; exact beq_iff_eq.1 henabled)
  have hwindow : (s.endDrain w p).window v = s.window v :=
    (window_congr (record_windows _ _) v).trans (window_setWindow_ne _ _ hne)
  unfold State.isMember State.enabled State.desc
  rw [hwindow]
  exact h

/-- R117, R122: the response to a copy burst takes no window out of a group. -/
theorem member_copyResponse (s : State) (r : BusResp) (d : List Word) (g : Fin 4) (v : Fin 8)
    (h : s.isMember g v = true) : (s.copyResponse r d).isMember g v = true := by
  have hsame : ∀ {t : State}, ServiceSame s t → t.isMember g v = true := fun k => by rw [k.isMember]; exact h
  unfold State.copyResponse
  split
  · exact h
  next p _ =>
    split
    · unfold State.copyOkay
      dsimp only
      split
      · exact h
      · exact hsame serviceSame_of_windows
      · split
        · exact hsame serviceSame_of_windows
        · unfold State.copyEndsWell
          dsimp only
          split
          · exact hsame (ServiceSame.trans serviceSame_of_windows (serviceSame_checkReady _ _))
          next hdrain =>
            exact member_endDrain s.engineIdle _ p (fun e => by
              rw [show (s.engineIdle.window _).enable = _ from hdrain] at e; cases e) g v h
          · exact hsame serviceSame_of_windows
    · unfold State.copyFails
      dsimp only
      have hrecorded : ∀ e, ServiceSame s (s.engineIdle.record e) := fun e =>
        (serviceSame_of_windows (t := s.engineIdle)).trans (serviceSame_record _ e)
      split
      · exact hsame (((hrecorded _).trans (serviceSame_attemptFailed _ _ _)).trans (serviceSame_checkReady _ _))
      next hdrain =>
        refine member_endDrain _ _ p (fun e => ?_) g v (hsame (hrecorded _))
        rw [(hrecorded _).enable, hdrain] at e; cases e
      · exact hsame (hrecorded _)

theorem pendingFlip_checkReady (s : State) (w : Fin 8) : (s.checkReady w).pendingFlip = s.pendingFlip := by
  unfold State.checkReady
  split
  · exact record_pendingFlip _ _
  · rfl

theorem pendingFlip_copyResponse (s : State) (r : BusResp) (d : List Word) :
    (s.copyResponse r d).pendingFlip = s.pendingFlip := by
  unfold State.copyResponse
  split
  · rfl
  · split
    · unfold State.copyOkay
      dsimp only
      split
      · rfl
      · rfl
      · split
        · rfl
        · unfold State.copyEndsWell
          dsimp only
          split
          · exact pendingFlip_checkReady _ _
          · exact record_pendingFlip _ _
          · rfl
    · unfold State.copyFails
      dsimp only
      split
      · rw [pendingFlip_checkReady]
        unfold State.attemptFailed
        dsimp only
        split <;> exact (record_pendingFlip _ _).trans (record_pendingFlip s.engineIdle _)
      · exact (record_pendingFlip _ _).trans (record_pendingFlip s.engineIdle _)
      · exact record_pendingFlip s.engineIdle _

theorem flipOk_copyResponse {s : State} (h : s.FlipOk) (r : BusResp) (d : List Word) : (s.copyResponse r d).FlipOk :=
  flipOk_of_frame h
    ⟨fun x a res k => by rw [(handlersSame_copyResponse s r d).phaseOf]; exact k,
      fun g k => by rw [group_congr (copyResponse_groups s r d) g]; exact k, member_copyResponse s r d⟩
    (pendingFlip_copyResponse s r d)

/-! ## Boundaries and window actions -/

/-- R88: the commit that a boundary leaves pending is the one that was, or that of a group whose commit it took. -/
theorem pendingFlip_judgeGroups_cases {s : State} {f : TakenCommit} (h : s.judgeGroups.pendingFlip = some f) :
    s.pendingFlip = some f ∨
      ∃ g, takesCommit s g = true ∧ s.issuedInto (s.members g) = true ∧ f = waitingCommit s g := by
  rw [judgeGroups_pendingFlip] at h
  have hfold : ∀ (l : List (Fin 4)) (start : Option TakenCommit),
      (l.foldl (fun f g => if takesCommit s g && s.issuedInto (s.members g) then some (waitingCommit s g) else f) start)
        = some f → start = some f ∨
        ∃ g, takesCommit s g = true ∧ s.issuedInto (s.members g) = true ∧ f = waitingCommit s g := by
    intro l
    induction l with
    | nil => exact fun start hstart => .inl hstart
    | cons g l ih =>
      intro start hstart
      rcases ih _ hstart with hnext | htaken
      · dsimp only at hnext
        split at hnext
        next htakes =>
          obtain ⟨htake, hissued⟩ := Bool.and_eq_true_iff.1 htakes
          exact .inr ⟨g, htake, hissued, (Option.some.inj hnext).symm⟩
        · exact .inl hnext
      · exact .inr htaken
  exact hfold _ _ h

/-- R85, R86: a boundary defers no group whose commit is the pending flip. -/
theorem groupAfter_idle {s : State} {g : Fin 4} (hidle : (s.group g).state = .idle)
    (hpending : s.flipPendingFor g = true) : (groupAfter s g).state = .idle := by
  have hnot : s.groupReady g = false := by
    unfold State.groupReady
    rw [hpending]
    exact Bool.and_false _
  have houtcome : s.groupOutcome g = .nothing := by
    unfold State.groupOutcome
    rw [hnot, hidle]
    rfl
  unfold groupAfter
  rw [houtcome]
  exact hidle

theorem groupAfter_idle_of_takesCommit {s : State} {g : Fin 4} (h : takesCommit s g = true) :
    (groupAfter s g).state = .idle := by
  unfold takesCommit at h
  unfold groupAfter
  rcases Bool.or_eq_true_iff.1 h with h | h
  · rw [beq_iff_eq.1 h]
  · rw [beq_iff_eq.1 h]

theorem phaseOf_judgeGroups (s : State) (x : Port) : s.judgeGroups.phaseOf x = s.phaseOf x :=
  (handlersSame_of_commitOnly (commitOnly_judgeGroups s)).phaseOf x

theorem flipOk_judgeGroups {s : State} (h : s.FlipOk) : s.judgeGroups.FlipOk := by
  rw [flipOk_iff] at h ⊢
  intro f hf
  have hmember : ∀ g w, s.judgeGroups.isMember g w = s.isMember g w := (serviceSame_judgeGroups s).isMember
  rcases pendingFlip_judgeGroups_cases hf with hbefore | ⟨g, htakes, hissued, rfl⟩
  · obtain ⟨⟨x, a, r, hx⟩, hidle, hset, hascending⟩ := h f hbefore
    refine ⟨⟨x, a, r, (phaseOf_judgeGroups s x).trans hx⟩, ?_, fun w hw => (hmember _ w).trans (hset w hw), hascending⟩
    rw [judgeGroups_group]
    refine groupAfter_idle hidle ?_
    unfold State.flipPendingFor
    rw [hbefore]
    exact beq_self_eq_true _
  · obtain ⟨x, a, r, hx⟩ := issued_of_issuedInto hissued
    refine ⟨⟨x, a, r, (phaseOf_judgeGroups s x).trans hx⟩, ?_, fun w hw => ?_, members_ascending s g⟩
    · rw [judgeGroups_group]
      exact groupAfter_idle_of_takesCommit htakes
    · exact (hmember g w).trans ((mem_members s g w).1 hw)

theorem flipOk_deliver {s : State} (h : s.FlipOk) : s.deliver.FlipOk := by
  refine flipOk_of_frame (flipOk_judgeGroups h) (flipFrame_of_service (serviceSame_of_windows (deliver_windows s))
    (fun x a r k => ?_) (deliver_groups s)) (deliver_pendingFlip s)
  rw [phaseOf_judgeGroups] at k
  exact (issued_deliver s x a r).2 k

/-- A window that is no member of a group can change without any group losing a member. -/
theorem isMember_of_window_eq {s t : State} {g : Fin 4} {v : Fin 8} (hv : t.window v = s.window v) :
    t.isMember g v = s.isMember g v := by
  unfold State.isMember State.enabled State.desc; rw [hv]

theorem ne_of_isMember {s : State} {g : Fin 4} {w v : Fin 8} (hw : (s.window w).enable ≠ .enabled)
    (h : s.isMember g v = true) : v ≠ w := fun e =>
  hw (by subst e; exact beq_iff_eq.1 (isMember_enabled h))

/-- R103: a window leaves service, and with it the set of the pending flip. -/
theorem flipOk_leaveService {s : State} (h : s.FlipOk) (w : Fin 8) (next : EnableState) :
    (s.leaveService w next).FlipOk := by
  rw [flipOk_iff] at h ⊢
  intro f hf
  obtain ⟨k, hk, rfl⟩ := Option.map_eq_some_iff.1 (show s.pendingFlip.map (·.without w) = some f from hf)
  obtain ⟨⟨x, a, r, hx⟩, hidle, hset, hascending⟩ := h k hk
  refine ⟨⟨x, a, r, by cases x <;> exact hx⟩, hidle, fun v hv => ?_, hascending.filter _⟩
  obtain ⟨hmem, hne⟩ := List.mem_filter.1 hv
  have hwindow : (s.leaveService w next).window v = s.window v := window_setWindow_ne s _ (of_decide_eq_true hne)
  exact (isMember_of_window_eq hwindow).trans (hset v hmem)

/-- R18: a window comes into service beside the members of the groups. -/
theorem flipOk_setIdleWindow {s t : State} (h : s.FlipOk) {w : Fin 8} (hw : (s.window w).enable ≠ .enabled)
    (hwindow : ∀ v, v ≠ w → t.window v = s.window v) (hp : t.pPort = s.pPort := by rfl) (hc : t.cPort = s.cPort := by rfl)
    (hg : t.groups = s.groups := by rfl) (hf : t.pendingFlip = s.pendingFlip := by rfl) : t.FlipOk :=
  flipOk_of_frame h ⟨fun x a r k => (issued_of_phaseOf hp hc x a r).2 k,
    fun g k => by rw [group_congr hg g]; exact k,
    fun g v k => by rw [isMember_of_window_eq (hwindow v (ne_of_isMember hw k))]; exact k⟩ hf

/-- R98: a DISARM lets every IDLE group IDLE. -/
theorem flipOk_disarmed {s : State} (h : s.FlipOk) (w : Fin 8) : (s.disarmed w).FlipOk := by
  unfold State.disarmed
  dsimp only
  split
  · exact flipOk_setWindow h w
  · exact flipOk_of_frame (flipOk_setWindow h w) (flipFrame_groupIdle _ _) rfl

/-- The laws of the M-port and of the pending flip with what the engine's phase says. -/
structure FlipAndArbiterOk (s : State) : Prop where
  arbiter : ArbiterAndEngineOk s
  flip : s.FlipOk

theorem flipOk_change {o : Bool} {s t : State} (ha : s.ArbiterOk) (h : s.FlipOk) (c : Change o s t) : t.FlipOk := by
  cases c with
  | unlawed => exact flipOk_of_eq h
  | inputs => exact flipOk_of_eq h
  | freed => exact flipOk_of_eq h
  | mgmt => exact flipOk_of_eq h
  | timer => exact flipOk_of_eq h
  | freeze => exact flipOk_of_eq h
  | record e => exact flipOk_record h e
  | pop => exact flipOk_of_eq h
  | evmask => exact flipOk_of_eq h
  | limit g n =>
    refine flipOk_of_frame h ⟨fun x a r k => by cases x <;> exact k, fun k hidle => ?_, fun _ _ k => k⟩ rfl
    rw [group_setGroup]
    split
    next e => subst e; exact hidle
    · exact hidle
  | holdMax => exact flipOk_of_eq h
  | descriptor w d hw =>
    exact flipOk_setIdleWindow h (w := w) (by rw [hw]; nofun) fun v hv => window_setWindow_ne s _ hv
  | judge x a hidle =>
    have honly := portsOnly_judgeAccess s x a
    refine flipOk_of_frame h (flipFrame_of_ports honly fun y b r k => ?_) honly.pendingFlip
    exact (issued_judgeAccess (fun _ _ e => by rw [hidle] at e; cases e) a y b r).2 k
  | misformed x a hidle =>
    have honly : PortsOnly s (s.refuseAccess x a) := portsOnly_setPort s x _
    refine flipOk_of_frame h (flipFrame_of_ports honly fun y b r k => ?_) honly.pendingFlip
    exact (issued_refuseAccess (fun _ _ e => by rw [hidle] at e; cases e) a y b r).2 k
  | timeOut a w p hheld =>
    refine flipOk_of_frame h (flipFrame_of_service serviceSame_of_windows (fun y b r k => ?_) rfl) rfl
    refine (issued_refuseAccess (s := s.clearHold .p) (x := .p) (fun b r e => ?_) a y b r).2 (by cases y <;> exact k)
    rw [show (s.clearHold .p).phaseOf .p = .held a .sealed w p from hheld] at e; cases e
  | grant q hq =>
    exact flipOk_rejudge (flipOk_grantTo (pendingFlip_none_of_free ha h (mport_free_of_decision (by rw [hq]; rfl))) q)
  | response q m r d hbusy =>
    refine flipOk_rejudge ?_
    cases q with
    | consumer => exact flipOk_of_none (flipAfter_port_pendingFlip _ nofun)
    | producer => exact flipOk_of_none (flipAfter_port_pendingFlip _ nofun)
    | copy =>
      rw [flipAfter_copy]
      exact flipOk_copyResponse (s := { s with mport := .free }) (flipOk_of_eq h) r d
  | deliver => exact flipOk_deliver h
  | enable w hw =>
    exact flipOk_rejudge (flipOk_setIdleWindow h (w := w) (by rw [hw]; nofun) fun v hv => window_setWindow_ne s _ hv)
  | drain w => exact flipOk_rejudge (flipOk_leaveService h w .draining)
  | disable w => exact flipOk_rejudge (flipOk_record (flipOk_leaveService h w .disabled) _)
  | resync w => exact flipOk_rejudge (flipOk_written h w)
  | disarm w => exact flipOk_rejudge (flipOk_disarmed h w)
  | engineReset => exact flipOk_of_none (rejudge_pendingFlip _)
  | hardReset => exact flipOk_of_none rfl

theorem flipAndArbiterOk_change {o : Bool} {s t : State} (h : FlipAndArbiterOk s) (c : Change o s t) : FlipAndArbiterOk t :=
  ⟨arbiterAndEngineOk_change h.arbiter c, flipOk_change h.arbiter.arbiter h.flip c⟩

theorem flipAndArbiterOk_step {s t : State} (h : s.Inv) (hstep : step s = .next t) : FlipAndArbiterOk t :=
  kept_of_step flipAndArbiterOk_change ⟨⟨h.arbiter, engineOk_of_pagesOk h.pages⟩, h.flip⟩ hstep

/-- Settles O57: every piece of a step keeps the law of the M-port, with what the engine's phase says, and the law of the
pending flip with it. -/
theorem arbiterAndFlipLawsAreKept : Obligations.ArbiterAndFlipLawsAreKept :=
  ⟨fun _ _ h hstep => (flipAndArbiterOk_step h hstep).arbiter.arbiter, fun _ _ h hstep => (flipAndArbiterOk_step h hstep).flip⟩

end Sys2Proof.Laws
end

section
/-! The run of a window as a list of pages (R2), and the pages of it that stand in a state. -/

namespace Sys2Proof.Laws

open Sys2Proof Sys2Proof.Machine

theorem ofNat_val_of_lt {n : Nat} (h : n < 512) : (Fin.ofNat 512 n).val = n := Nat.mod_eq_of_lt h

/-- R2: the pages of a run that fits the Page Map. -/
theorem mem_run {d : Descriptor} (h : d.runOk = true) (p : Fin 512) : p ∈ d.run ↔ d.inRun p = true := by
  obtain ⟨-, -, hfits⟩ := (runOk_iff d).1 h
  unfold Descriptor.run
  rw [List.mem_map, inRun_iff]
  constructor
  · rintro ⟨n, hn, rfl⟩
    obtain ⟨hfirst, hlast⟩ := List.mem_range'_1.1 hn
    rw [ofNat_val_of_lt (by omega)]
    exact ⟨hfirst, hlast⟩
  · rintro ⟨hfirst, hlast⟩
    exact ⟨p.val, List.mem_range'_1.2 ⟨hfirst, hlast⟩, Fin.ext (ofNat_val_of_lt p.isLt)⟩

/-- R2: the run is in ascending index. -/
theorem run_ascending {d : Descriptor} (h : d.runOk = true) : d.run.Pairwise (· < ·) := by
  obtain ⟨-, -, hfits⟩ := (runOk_iff d).1 h
  unfold Descriptor.run
  refine List.pairwise_map.2 (List.Pairwise.imp_of_mem (fun {m n} hm hn hlt => ?_) List.pairwise_lt_range')
  obtain ⟨-, hmlast⟩ := List.mem_range'_1.1 hm
  obtain ⟨-, hnlast⟩ := List.mem_range'_1.1 hn
  show (Fin.ofNat 512 m).val < (Fin.ofNat 512 n).val
  rw [ofNat_val_of_lt (by omega), ofNat_val_of_lt (by omega)]
  exact hlt

theorem run_nodup {d : Descriptor} (h : d.runOk = true) : d.run.Nodup := (run_ascending h).imp fun hlt => ne_of_lt hlt

/-- R2: the run is the entries of the Page Map that lie in it, in ascending index. -/
theorem run_eq {d : Descriptor} (h : d.runOk = true) : d.run = (List.finRange 512).filter d.inRun :=
  List.Pairwise.eq_of_mem_iff (run_ascending h) ((List.pairwise_lt_finRange 512).filter _) fun p => by
    rw [mem_run h, List.mem_filter]
    exact ⟨fun hp => ⟨List.mem_finRange p, hp⟩, fun hp => hp.2⟩

theorem mem_pagesIn {d : Descriptor} (h : d.runOk = true) (s : State) (st : PageState) (p : Fin 512) :
    p ∈ s.pagesIn d st ↔ d.inRun p = true ∧ (s.page p).state = st := by
  unfold State.pagesIn
  rw [List.mem_filter, mem_run h, beq_iff_eq]

theorem pagesIn_nodup {d : Descriptor} (h : d.runOk = true) (s : State) (st : PageState) : (s.pagesIn d st).Nodup :=
  (run_nodup h).filter _

/-- R2, R9: the pages of a usable window's run in a state. -/
theorem pagesIn_eq_runPages {s : State} {w : Fin 8} (h : (s.desc w).runOk = true) (st : PageState) :
    s.pagesIn (s.desc w) st = s.runPages w st := by
  unfold State.pagesIn State.runPages
  rw [run_eq h, List.filter_filter]
  exact List.filter_congr fun p _ => Bool.and_comm _ _

end Sys2Proof.Laws
end

section
/-! The windows and the Page Map (R4 to R22, R110 to R127): the two laws as one, entry by entry, and what each operation
on windows, pages and the Copy Queue keeps of it. -/

namespace Sys2Proof.Laws

open Sys2Proof Sys2Proof.Machine

/-! ## The law, entry by entry -/

/-- R10, R15, R16: the attempt count of an entry by its state. -/
def AttemptsOk (e : PageEntry) : Prop :=
  match e.state with
  | .unused => e.attempts = 0#2
  | .synced => e.attempts = 0#2
  | .dirty => e.attempts = 0#2
  | .stale => e.attempts ≠ 3#2
  | .copying => e.attempts ≠ 0#2
  | .broken => e.attempts = 3#2

/-- R10, R110, R113: an entry by the Copy Queue and the page in flight. -/
structure EntryOk (s : State) (p : Fin 512) : Prop where
  queued : p ∈ s.copyQueue ↔ (s.page p).state = .stale
  inFlight : (s.page p).state = .copying ↔ s.engine.page = some p
  attempts : AttemptsOk (s.page p)

/-- R10, R19: an entry by the windows in service. -/
structure Placed (s : State) (p : Fin 512) : Prop where
  owned : (s.page p).state ≠ .unused → ∃ w, s.inService w ∧ (s.desc w).inRun p = true
  used : ∀ w, s.enabled w = true → (s.desc w).inRun p = true → (s.page p).state ≠ .unused
  drained : ∀ w, (s.window w).enable = .draining → (s.desc w).inRun p = true → s.engine.page ≠ some p →
    (s.page p).state = .unused

/-- The law of the windows and that of the Page Map, but for the engine's own phase. -/
structure MapOk (s : State) : Prop where
  windows : s.WindowsOk
  entry : ∀ p, EntryOk s p
  placed : ∀ p, Placed s p
  once : s.copyQueue.Nodup

theorem mapOk_of_laws {s : State} (hw : s.WindowsOk) (hp : s.PagesOk) : MapOk s where
  windows := hw
  entry p := ⟨hp.queued p, hp.inFlight p, hp.attempts p⟩
  placed p := ⟨hp.owned p, fun w => hp.used w p, fun w => hp.drained w p⟩
  once := hp.once

theorem pagesOk_of_mapOk {s : State} (h : MapOk s) (he : EngineOk s.engine) : s.PagesOk where
  owned p := (h.placed p).owned
  used w p := (h.placed p).used w
  drained w p := (h.placed p).drained w
  queued p := (h.entry p).queued
  once := h.once
  inFlight p := (h.entry p).inFlight
  engineIdle := he.idle
  notIssued := he.quiet
  attempts p := (h.entry p).attempts

/-! ## What the law says of one page -/

theorem inService_of_enabled {s : State} {w : Fin 8} (h : s.enabled w = true) : s.inService w := fun hd => by
  have he : (s.window w).enable = .enabled := beq_iff_eq.1 h
  rw [hd] at he; cases he

theorem inService_of_draining {s : State} {w : Fin 8} (h : (s.window w).enable = .draining) : s.inService w := fun hd => by
  rw [hd] at h; cases h

theorem enabled_iff (s : State) (w : Fin 8) : s.enabled w = true ↔ (s.window w).enable = .enabled := beq_iff_eq

/-- R10: two windows in service share no entry. -/
theorem owner_unique {s : State} (h : s.WindowsOk) {w v : Fin 8} {p : Fin 512} (hw : s.inService w) (hv : s.inService v)
    (hwp : (s.desc w).inRun p = true) (hvp : (s.desc v).inRun p = true) : w = v := by
  by_contra hne
  have hapart := h.apart w v hne hw hv
  exact (runApart_iff (runOk_of_usable (h.usable w hw)) (runOk_of_usable (h.usable v hv))).1 hapart p ⟨hwp, hvp⟩

/-- R10: the owner of a page is the window in service in whose run it lies. -/
theorem owner_eq {s : State} (h : s.WindowsOk) {w : Fin 8} {p : Fin 512} (hw : s.inService w)
    (hwp : (s.desc w).inRun p = true) : s.owner p = w := by
  have hsome : (s.ownerOf p).isSome = true := by
    unfold State.ownerOf
    rw [List.find?_isSome]
    exact ⟨w, mem_allWindows w, by rw [hwp, Bool.and_true]; exact bne_iff_ne.2 hw⟩
  obtain ⟨v, hv⟩ := Option.isSome_iff_exists.1 hsome
  have hfound := List.find?_some hv
  obtain ⟨hservice, hrun⟩ := Bool.and_eq_true_iff.1 hfound
  unfold State.owner
  rw [hv]
  exact owner_unique h (bne_iff_ne.1 hservice) hw hrun hwp

theorem mapOk_copying {s : State} (h : MapOk s) {p : Fin 512} (hpage : s.engine.page = some p) :
    (s.page p).state = .copying := (h.entry p).inFlight.2 hpage

/-- R10, R113: the page in flight is in the run of its owner, which is in service. -/
theorem owner_of_inFlight {s : State} (h : MapOk s) {p : Fin 512} (hpage : s.engine.page = some p) :
    s.inService (s.owner p) ∧ (s.desc (s.owner p)).inRun p = true := by
  obtain ⟨w, hw, hrun⟩ := (h.placed p).owned (by rw [mapOk_copying h hpage]; nofun)
  rw [owner_eq h.windows hw hrun]
  exact ⟨hw, hrun⟩

/-- R10: an entry taken out of every run in service. -/
theorem placed_of_unused {s : State} {p : Fin 512} (hstate : (s.page p).state = .unused)
    (hnone : ∀ w, s.enabled w = true → (s.desc w).inRun p = false) : Placed s p where
  owned h := absurd hstate h
  used w hw hrun := by rw [hnone w hw] at hrun; cases hrun
  drained _ _ _ _ := hstate

/-- R10: an entry of the run of an ENABLED window. -/
theorem placed_of_used {s : State} (h : s.WindowsOk) {w : Fin 8} {p : Fin 512} (hw : s.enabled w = true)
    (hrun : (s.desc w).inRun p = true) (hstate : (s.page p).state ≠ .unused) : Placed s p where
  owned _ := ⟨w, inService_of_enabled hw, hrun⟩
  used _ _ _ := hstate
  drained v hv hvrun _ := by
    have he := owner_unique h (inService_of_draining hv) (inService_of_enabled hw) hvrun hrun
    rw [he, (enabled_iff s w).1 hw] at hv; cases hv

/-! ## Changes that keep every window's service -/

/-- A window out of service says nothing. -/
def QuietWindow (x : Window) : Prop := x.commit = .isOpen ∧ x.bracket = .closed ∧ x.readyPending = false

/-- The enable states are kept, and what the law says of the windows in service and of the others. -/
structure ServiceKept (s t : State) : Prop where
  enable : ∀ w, (t.window w).enable = (s.window w).enable
  desc : ∀ w, s.inService w → t.desc w = s.desc w
  quiet : ∀ w, s.enabled w = false → QuietWindow (s.window w) → QuietWindow (t.window w)

theorem serviceKept_of_windows {s t : State} (h : t.windows = s.windows := by rfl) : ServiceKept s t where
  enable w := congrArg Window.enable (window_congr h w)
  desc w _ := congrArg Window.desc (window_congr h w)
  quiet w _ hq := by rw [window_congr h w]; exact hq

/-- A write of an ENABLED window that keeps its service. -/
theorem serviceKept_written {s t : State} {w : Fin 8} (hen : s.enabled w = true) {x : Window}
    (hw : t.windows = s.windows.set w.val x := by rfl) (hdesc : x.desc = s.desc w := by rfl)
    (henable : x.enable = (s.window w).enable := by rfl) : ServiceKept s t := by
  have hsame := serviceSame_written w hw hdesc henable
  refine ⟨hsame.enable, fun v _ => hsame.desc v, fun v hv hq => ?_⟩
  have hne : v ≠ w := fun e => by rw [e, hen] at hv; cases hv
  have hwindow : t.window v = s.window v :=
    (window_congr (t := s.setWindow w x) hw v).trans (window_setWindow_ne s x hne)
  rw [hwindow]
  exact hq

theorem ServiceKept.enabled {s t : State} (h : ServiceKept s t) (w : Fin 8) : t.enabled w = s.enabled w := by
  unfold State.enabled; rw [h.enable w]

theorem ServiceKept.inService {s t : State} (h : ServiceKept s t) (w : Fin 8) : t.inService w ↔ s.inService w := by
  unfold State.inService; rw [h.enable w]

theorem windowsOk_of_kept {s t : State} (h : s.WindowsOk) (k : ServiceKept s t) (he : t.engine.page = s.engine.page) :
    t.WindowsOk where
  quiet w hw := k.quiet w (k.enabled w ▸ hw) (h.quiet w (k.enabled w ▸ hw))
  usable w hw := by
    have hs := (k.inService w).1 hw
    rw [k.desc w hs]; exact h.usable w hs
  apart w v hne hw hv := by
    have hsw := (k.inService w).1 hw
    have hsv := (k.inService v).1 hv
    rw [k.desc w hsw, k.desc v hsv]; exact h.apart w v hne hsw hsv
  draining w hw := by
    rw [k.enable w] at hw
    rw [he, k.desc w (inService_of_draining hw)]
    exact h.draining w hw

theorem placed_of_kept {s t : State} {p : Fin 512} (h : Placed s p) (k : ServiceKept s t)
    (hstate : (t.page p).state = .unused ↔ (s.page p).state = .unused)
    (he : s.engine.page = some p → t.engine.page = some p) : Placed t p where
  owned hp := by
    obtain ⟨w, hw, hrun⟩ := h.owned fun e => hp (hstate.2 e)
    exact ⟨w, (k.inService w).2 hw, by rw [k.desc w hw]; exact hrun⟩
  used w hw hrun := by
    rw [k.enabled w] at hw
    rw [k.desc w (inService_of_enabled hw)] at hrun
    exact fun e => h.used w hw hrun (hstate.1 e)
  drained w hw hrun hne := by
    rw [k.enable w] at hw
    rw [k.desc w (inService_of_draining hw)] at hrun
    exact hstate.2 (h.drained w hw hrun fun e => hne (he e))

theorem entryOk_of_same {s t : State} {p : Fin 512} (h : EntryOk s p) (hpage : t.page p = s.page p)
    (hqueue : p ∈ t.copyQueue ↔ p ∈ s.copyQueue) (he : t.engine.page = some p ↔ s.engine.page = some p) : EntryOk t p := by
  refine ⟨?_, ?_, ?_⟩ <;> rw [hpage]
  · rw [hqueue]; exact h.queued
  · rw [he]; exact h.inFlight
  · exact h.attempts

/-- The windows change within their service, and the map of pages stays. -/
theorem mapOk_of_kept {s t : State} (h : MapOk s) (k : ServiceKept s t) (hp : t.pages = s.pages := by rfl)
    (hq : t.copyQueue = s.copyQueue := by rfl) (he : t.engine.page = s.engine.page := by rfl) : MapOk t where
  windows := windowsOk_of_kept h.windows k he
  entry p := entryOk_of_same (h.entry p) (page_congr hp p) (by rw [hq]) (by rw [he])
  placed p := placed_of_kept (h.placed p) k (by rw [page_congr hp p]) fun e => he.trans e
  once := hq ▸ h.once

theorem mapOk_of_eq {s t : State} (h : MapOk s) (hw : t.windows = s.windows := by rfl) (hp : t.pages = s.pages := by rfl)
    (hq : t.copyQueue = s.copyQueue := by rfl) (he : t.engine.page = s.engine.page := by rfl) : MapOk t :=
  mapOk_of_kept h (serviceKept_of_windows hw) hp hq he

theorem mapOk_record {s : State} (h : MapOk s) (e : Event) : MapOk (s.record e) :=
  mapOk_of_eq h (record_windows s e) (record_pages s e) (record_copyQueue s e) (congrArg Engine.page (record_engine s e))

theorem mapOk_setPort {s : State} (h : MapOk s) (x : Port) (v : PortState) : MapOk (s.setPort x v) :=
  mapOk_of_eq h (setPort_windows s x v) (setPort_pages s x v) (setPort_copyQueue s x v)
    (congrArg Engine.page (setPort_engine s x v))

/-! ## Judgements -/

/-- R119: the move of a STALE page to the head of the queue. -/
theorem mapOk_promote {s : State} (h : MapOk s) (p : Fin 512) : MapOk (s.promote p) := by
  by_cases hstale : (s.page p).state = .stale
  · rw [promote_stale s p hstale]
    have hmem : p ∈ s.copyQueue := (h.entry p).queued.2 hstale
    refine ⟨windowsOk_of_kept h.windows serviceKept_of_windows rfl, fun q => ?_, fun q => ?_, ?_⟩
    · refine entryOk_of_same (h.entry q) rfl ?_ Iff.rfl
      show q ∈ p :: s.copyQueue.filter (· ≠ p) ↔ _
      rw [List.mem_cons, List.mem_filter, decide_eq_true_iff]
      by_cases hq : q = p
      · subst hq; exact ⟨fun _ => hmem, fun _ => .inl rfl⟩
      · exact ⟨fun hor => (hor.resolve_left hq).1, fun hin => .inr ⟨hin, hq⟩⟩
    · exact placed_of_kept (h.placed q) serviceKept_of_windows Iff.rfl id
    · refine List.nodup_cons.2 ⟨fun hin => ?_, h.once.filter _⟩
      exact of_decide_eq_true (List.mem_filter.1 hin).2 rfl
  · rw [promote_other s p hstale]; exact h

theorem mapOk_noteMerge {s : State} (h : MapOk s) (x : Port) (a : Access) : MapOk (s.noteMerge x a) := by
  unfold State.noteMerge
  split
  · exact mapOk_record (mapOk_of_eq h) _
  · exact h

theorem mapOk_clearHold {s : State} (h : MapOk s) (x : Port) : MapOk (s.clearHold x) := by
  cases x <;> exact mapOk_of_eq h

theorem mapOk_takeJudgement {s : State} (h : MapOk s) (x : Port) (a : Access) (j : Judgement) :
    MapOk (s.takeJudgement x a j) := by
  have hcleared := mapOk_clearHold h x
  cases j with
  | go r => exact mapOk_setPort hcleared x _
  | hold why w p =>
    cases why with
    | demand => exact mapOk_promote (mapOk_setPort hcleared x _) p
    | sealed =>
      refine mapOk_setPort ?_ x _
      split
      · exact h
      · exact hcleared
  | refuse e => exact mapOk_record (mapOk_setPort hcleared x _) e

theorem mapOk_judgeAccess {s : State} (h : MapOk s) (x : Port) (a : Access) : MapOk (s.judgeAccess x a) :=
  mapOk_takeJudgement (mapOk_noteMerge h x a) x a _

theorem mapOk_settle {s : State} (h : MapOk s) (x : Port) : MapOk (s.settle x) := by
  unfold State.settle
  split
  · exact h
  · exact mapOk_judgeAccess h x _
  · exact mapOk_judgeAccess h x _
  · exact h

theorem mapOk_rejudge {s : State} (h : MapOk s) : MapOk s.rejudge := by
  rcases rejudge_cases s with ⟨n, hn⟩ | ⟨n, hn⟩ <;> rw [hn]
  · exact mapOk_settle (mapOk_settle (mapOk_of_eq h) .p) .c
  · exact mapOk_settle (mapOk_settle (mapOk_of_eq h) .c) .p

/-! ## Pages that become STALE at the tail of the queue -/

/-- R101, R22: the pages of an ENABLED window's run that stand in a state become STALE and join the tail. -/
theorem mapOk_requeued {s t : State} (h : MapOk s) {w : Fin 8} (hen : s.enabled w = true) {st : PageState}
    (hst : st = .dirty ∨ st = .broken) (k : ServiceKept s t) (f : PageEntry → PageEntry)
    (hf : ∀ e, (f e).state = .stale ∧ (f e).attempts = 0#2)
    (hpage : ∀ p, t.page p = if (s.desc w).inRun p = true ∧ (s.page p).state = st then f (s.page p) else s.page p)
    (hqueue : t.copyQueue = s.copyQueue ++ s.pagesIn (s.desc w) st) (he : t.engine.page = s.engine.page) : MapOk t := by
  have hservice := inService_of_enabled hen
  have hrunOk := runOk_of_usable (h.windows.usable w hservice)
  have hmem : ∀ p, p ∈ t.copyQueue ↔
      p ∈ s.copyQueue ∨ ((s.desc w).inRun p = true ∧ (s.page p).state = st) := fun p => by
    rw [hqueue, List.mem_append, mem_pagesIn hrunOk]
  have hnot : ∀ p, (s.page p).state = st → (s.page p).state ≠ .stale ∧ (s.page p).state ≠ .copying ∧
      (s.page p).state ≠ .unused := fun p hp => by
    rw [hp]; rcases hst with rfl | rfl <;> decide
  refine ⟨windowsOk_of_kept h.windows k he, fun p => ?_, fun p => ?_, ?_⟩
  · by_cases hp : (s.desc w).inRun p = true ∧ (s.page p).state = st
    · obtain ⟨hstale, hattempts⟩ := hf (s.page p)
      have hentry : t.page p = f (s.page p) := (hpage p).trans (if_pos hp)
      refine ⟨?_, ?_, ?_⟩
      · rw [hmem, hentry, hstale]; exact ⟨fun _ => rfl, fun _ => .inr hp⟩
      · rw [hentry, hstale, he]
        exact ⟨nofun, fun e => absurd ((h.entry p).inFlight.2 e) (hnot p hp.2).2.1⟩
      · unfold AttemptsOk
        rw [hentry, hstale, hattempts]
        decide
    · exact entryOk_of_same (h.entry p) ((hpage p).trans (if_neg hp)) ((hmem p).trans (or_iff_left hp)) (by rw [he])
  · refine placed_of_kept (h.placed p) k ?_ fun e => he.trans e
    rw [hpage p]
    split
    next hp =>
      rw [(hf _).1]
      exact ⟨nofun, fun e => absurd e (hnot p hp.2).2.2⟩
    · exact Iff.rfl
  · rw [hqueue]
    refine h.once.append (pagesIn_nodup hrunOk s st) fun p hin hdirty => ?_
    exact (hnot p ((mem_pagesIn hrunOk s st p).1 hdirty).2).1 ((h.entry p).queued.1 hin)

/-- R101: the flip of an ENABLED window. -/
theorem mapOk_flipWindow {s : State} (h : MapOk s) {w : Fin 8} (hen : s.enabled w = true) : MapOk (s.flipWindow w) :=
  mapOk_requeued h hen (.inl rfl) (serviceKept_written hen) PageEntry.flipped (fun _ => ⟨rfl, rfl⟩) (flipWindow_page s w)
    (flipWindow_copyQueue s w) rfl

theorem enabled_flipWindow (s : State) (w v : Fin 8) : (s.flipWindow w).enabled v = s.enabled v := by
  unfold State.enabled
  rw [flipWindow_window]
  split
  next e => rw [e]
  · rfl

theorem mapOk_foldl_flipWindow (ws : List (Fin 8)) {s : State} (h : MapOk s) (hen : ∀ w ∈ ws, s.enabled w = true) :
    MapOk (ws.foldl State.flipWindow s) := by
  induction ws generalizing s with
  | nil => exact h
  | cons w ws ih =>
    rw [List.foldl_cons]
    refine ih (mapOk_flipWindow h (hen w List.mem_cons_self)) fun v hv => ?_
    rw [enabled_flipWindow]
    exact hen v (List.mem_cons_of_mem w hv)

theorem mapOk_flip {s : State} (h : MapOk s) (f : TakenCommit) : MapOk (s.flip f) := by
  rw [flip_eq]
  exact mapOk_of_eq (mapOk_foldl_flipWindow (f.set.filter s.enabled) h fun w hw => (List.mem_filter.1 hw).2)

theorem mapOk_takeCommit {s : State} (h : MapOk s) (g : Fin 4) (o : Origin) : MapOk (s.takeCommit g o) := by
  unfold State.takeCommit
  dsimp only
  split
  · exact mapOk_of_eq h
  · exact mapOk_flip (mapOk_of_eq h) _

/-- R22: RESYNC of an ENABLED window. -/
theorem mapOk_returnBroken {s : State} (h : MapOk s) {w : Fin 8} (hen : s.enabled w = true) : MapOk (s.returnBroken w) := by
  refine mapOk_requeued h hen (.inr rfl) (serviceKept_written hen) (fun e => { e with state := .stale, attempts := 0#2 })
    (fun _ => ⟨rfl, rfl⟩) (fun p => ?_) rfl rfl
  show (s.mapPages fun q e => if (s.desc w).inRun q && e.state == .broken then { e with state := .stale, attempts := 0#2 }
    else e).page p = _
  rw [page_mapPages]
  simp only [Bool.and_eq_true, beq_iff_eq]

/-! ## The Commit Controller -/

/-- R90: the brackets revoked are those of ENABLED windows. -/
theorem mapOk_foldl_revoke (ws : List (Fin 8)) {s : State} (h : MapOk s) (hen : ∀ w ∈ ws, s.enabled w = true) :
    MapOk (ws.foldl State.revoke s) := by
  induction ws generalizing s with
  | nil => exact h
  | cons w ws ih =>
    rw [List.foldl_cons]
    have hrevoked : ServiceKept s (s.revoke w) := serviceKept_written (hen w List.mem_cons_self)
    refine ih (mapOk_of_kept h hrevoked) fun v hv => ?_
    rw [hrevoked.enabled]
    exact hen v (List.mem_cons_of_mem w hv)

theorem enabled_of_mem_openMembers {s : State} {g : Fin 4} {w : Fin 8} (h : w ∈ s.openMembers g) : s.enabled w = true :=
  isMember_enabled ((mem_openMembers s g w).1 h).1

theorem mapOk_applyOutcome {s : State} (h : MapOk s) (g : Fin 4) (o : GroupOutcome) : MapOk (s.applyOutcome g o) := by
  cases o with
  | nothing => exact h
  | endDeferral => exact mapOk_of_eq h
  | skip => exact mapOk_record h _
  | commit => exact mapOk_takeCommit h g .boundary
  | defer => exact mapOk_record (mapOk_of_eq h) _
  | force =>
    exact mapOk_takeCommit (mapOk_record (mapOk_foldl_revoke _ h fun _ hw => enabled_of_mem_openMembers hw) _) g .forced

theorem mapOk_foldl {α : Type} {f : State → α → State} (hf : ∀ s a, MapOk s → MapOk (f s a)) (l : List α) {s : State}
    (h : MapOk s) : MapOk (l.foldl f s) := by
  induction l generalizing s with
  | nil => exact h
  | cons a l ih => exact ih (hf s a h)

/-- R92: a window that is OPEN is not promoted. -/
theorem promoted_of_quiet {x : Window} (h : QuietWindow x) : x.promoted = x := by
  obtain ⟨hopen, -, -⟩ := h
  unfold Window.promoted
  rw [hopen]
  exact if_neg nofun

theorem serviceKept_promoted (s : State) : ServiceKept s (s.mapWindows Window.promoted) where
  enable w := by rw [window_mapWindows]; exact (promoted_service _).2
  desc w _ := by unfold State.desc; rw [window_mapWindows]; exact (promoted_service _).1
  quiet w _ hq := by rw [window_mapWindows, promoted_of_quiet hq]; exact hq

theorem mapOk_judgeGroups {s : State} (h : MapOk s) : MapOk s.judgeGroups :=
  mapOk_of_kept (mapOk_foldl (fun t g ht => mapOk_applyOutcome ht g (s.groupOutcome g)) allGroups h) (serviceKept_promoted _)

theorem mapOk_holdBoundary {s : State} (h : MapOk s) (taken : Fin 8 → Bool) : MapOk (s.holdBoundary taken) := by
  unfold State.holdBoundary
  split
  · split
    · exact h
    · split
      · exact mapOk_record (mapOk_of_eq h) _
      · exact mapOk_of_eq h
  · exact h

theorem mapOk_deliver {s : State} (h : MapOk s) : MapOk s.deliver :=
  mapOk_rejudge (mapOk_holdBoundary (mapOk_judgeGroups h) _)

theorem mapOk_judgeClose {s : State} (h : MapOk s) (g : Fin 4) : MapOk (s.judgeClose g) := by
  unfold State.judgeClose
  split
  · exact h
  · split
    · exact mapOk_of_eq h
    · split
      · exact h
      · split
        · exact h
        · exact mapOk_takeCommit h g .close

/-- R50, R51: a marker of an ENABLED window takes its effect. -/
theorem mapOk_takeMarker {s : State} (h : MapOk s) (a : Access) {w : Fin 8} (hen : s.enabled w = true) (m : Marker) :
    MapOk (s.takeMarker a w m) := by
  cases m with
  | commit =>
    show MapOk (s.commitMarker w _)
    unfold State.commitMarker
    dsimp only
    split
    · split
      · exact mapOk_record (mapOk_of_kept h (serviceKept_written hen)) _
      · exact mapOk_of_kept h (serviceKept_written hen)
    · exact mapOk_of_kept h (serviceKept_written hen)
    · exact mapOk_of_kept h (serviceKept_written hen)
  | leaseOpen =>
    show MapOk (s.leaseOpen w)
    unfold State.leaseOpen
    split
    · exact mapOk_of_kept h (serviceKept_written hen)
    · exact mapOk_of_kept h (serviceKept_written hen)
    · exact mapOk_record h _
  | leaseClose =>
    show MapOk (s.leaseClose w)
    unfold State.leaseClose
    split
    · exact mapOk_judgeClose (mapOk_of_kept h (serviceKept_written hen)) _
    · exact mapOk_of_kept h (serviceKept_written hen)
    · exact mapOk_record h _

end Sys2Proof.Laws
end

section
/-! The windows and the Page Map under grants, responses, window actions and resets. Settles O58 and O59. -/

namespace Sys2Proof.Laws

open Sys2Proof Sys2Proof.Machine

/-! ## Grants -/

/-- R29, R30: a PENDING marker access that stands as judged is that of an ENABLED window. -/
theorem enabled_of_pending_marker {s : State} (hj : s.JudgedOk) {x : Port} {a : Access} {r : Resolution}
    (hp : s.phaseOf x = .pending a r) {w : Fin 8} {m : Marker} (hr : r.cls = .marker w m) : s.enabled w = true := by
  obtain ⟨hjudge, -⟩ := stands_pending (hj x) hp
  unfold State.judge at hjudge
  split at hjudge
  next v k hplace =>
    cases hjudge
    cases hr
    exact (place_marker hplace).1
  next v hplace =>
    unfold State.judgeView State.served State.judgeProducerWrite State.judgeWrite State.served at hjudge
    repeat' split at hjudge
    all_goals cases hjudge
    all_goals cases hr
  next v k hplace =>
    split at hjudge
    · cases hjudge
    · cases hjudge; cases hr
  · cases hjudge; cases hr

theorem mapOk_grantPort {s : State} (h : MapOk s) (hj : s.JudgedOk) (x : Port) (q : Requester) : MapOk (s.grantPort x q) := by
  unfold State.grantPort
  split
  next a r hp =>
    have hissued : MapOk ((s.setPhase x (.issued a r)).issue q { a with addr := r.addr }) :=
      mapOk_of_eq (mapOk_setPort h x _)
    unfold State.grantEffect
    split
    next w m hr =>
      refine mapOk_takeMarker hissued a ?_ m
      have hen := enabled_of_pending_marker hj hp hr
      unfold State.enabled at hen ⊢
      rw [window_congr (show ((s.setPhase x (.issued a r)).issue q { a with addr := r.addr }).windows = s.windows from
        setPort_windows s x _) w]
      exact hen
    · exact hissued
    · exact hissued
    · exact hissued
  · exact h

theorem attempts_succ {n : BitVec 2} (h : n ≠ 3#2) : n + 1#2 ≠ 0#2 := by revert n; decide

/-- R114: the copy of the page at the head of the queue starts, no page being in flight. -/
theorem mapOk_startCopy {s : State} (h : MapOk s) (hidle : s.engine.page = none) : MapOk s.startCopy := by
  unfold State.startCopy
  split
  · exact h
  next p rest hqueue =>
    have hstale : (s.page p).state = .stale := (h.entry p).queued.1 (by rw [hqueue]; exact List.mem_cons_self)
    obtain ⟨hnotin, hrest⟩ := List.nodup_cons.1 (hqueue ▸ h.once)
    have hattempts : (s.page p).attempts ≠ 3#2 := by
      have hok := (h.entry p).attempts
      unfold AttemptsOk at hok
      rw [hstale] at hok
      exact hok
    have hother : ∀ q, q ≠ p → (s.setPage p (s.page p).started).page q = s.page q := fun q hq => page_setPage_ne s _ hq
    have hthis : (s.setPage p (s.page p).started).page p = (s.page p).started := page_setPage_same s p _
    have hnone : ∀ q, ¬s.engine.page = some q := fun q e => by rw [hidle] at e; cases e
    refine ⟨?_, fun q => ?_, fun q => ?_, hrest⟩
    · refine ⟨h.windows.quiet, h.windows.usable, h.windows.apart, fun w hw => ?_⟩
      obtain ⟨q, hq, -⟩ := h.windows.draining w hw
      exact absurd hq (hnone q)
    · by_cases hq : q = p
      · subst hq
        refine ⟨?_, ?_, ?_⟩
        · show q ∈ rest ↔ (State.page (s.setPage q _) q).state = .stale
          rw [hthis]
          exact ⟨fun hin => absurd hin hnotin, nofun⟩
        · show (State.page (s.setPage q _) q).state = .copying ↔ some q = some q
          rw [hthis]
          exact ⟨fun _ => rfl, fun _ => rfl⟩
        · show AttemptsOk (State.page (s.setPage q _) q)
          rw [hthis]
          exact attempts_succ hattempts
      · refine entryOk_of_same (h.entry q) (hother q hq) ?_ ⟨fun e => absurd (Option.some.inj e).symm hq, fun e => absurd e (hnone q)⟩
        rw [hqueue, List.mem_cons]
        exact ⟨.inr, fun hor => hor.resolve_left hq⟩
    · refine placed_of_kept (h.placed q) serviceKept_of_windows ?_ fun e => absurd e (hnone q)
      show (State.page (s.setPage p _) q).state = .unused ↔ _
      by_cases hq : q = p
      · subst hq
        rw [hthis, hstale]
        exact ⟨nofun, nofun⟩
      · rw [hother q hq]

theorem mapOk_grantEngine {s : State} (h : MapOk s) (he : EngineOk s.engine) : MapOk s.grantEngine := by
  unfold State.grantEngine
  split
  next hphase => exact mapOk_startCopy h (he.idle.1 hphase)
  · exact mapOk_of_eq h
  · exact mapOk_of_eq h

theorem mapOk_grantTo {s : State} (h : MapOk s) (hj : s.JudgedOk) (he : EngineOk s.engine) (q : Requester) :
    MapOk (s.grantTo q) := by
  have hnoted : MapOk (s.noteGrant q) := by cases q <;> exact mapOk_of_eq h
  have hjudged : (s.noteGrant q).JudgedOk := by cases q <;> exact judgedOk_of_eq hj
  cases q with
  | consumer => exact mapOk_grantPort hnoted hjudged .c .consumer
  | producer => exact mapOk_grantPort hnoted hjudged .p .producer
  | copy => exact mapOk_of_eq (mapOk_grantEngine (s := s.noteGrant .copy) hnoted he)

/-! ## The response -/

/-- One entry is rewritten, its state used before and after, and the queue and the page in flight follow it. -/
theorem mapOk_rewritten {s t : State} (h : MapOk s) {p : Fin 512} {e : PageEntry} (k : ServiceKept s t)
    (hpages : t.pages = s.pages.set p.val e) (hwindows : t.WindowsOk)
    (hqueue : ∀ q, q ≠ p → (q ∈ t.copyQueue ↔ q ∈ s.copyQueue)) (hqueued : p ∈ t.copyQueue ↔ e.state = .stale)
    (honce : t.copyQueue.Nodup)
    (hflight : ∀ q, q ≠ p → (t.engine.page = some q ↔ s.engine.page = some q))
    (hinFlight : e.state = .copying ↔ t.engine.page = some p) (hattempts : AttemptsOk e) (hplaced : Placed t p) : MapOk t := by
  have hthis : t.page p = e := (page_congr (t := s.setPage p e) hpages p).trans (page_setPage_same s p e)
  have hother : ∀ q, q ≠ p → t.page q = s.page q := fun q hq =>
    (page_congr (t := s.setPage p e) hpages q).trans (page_setPage_ne s e hq)
  refine ⟨hwindows, fun q => ?_, fun q => ?_, honce⟩
  · by_cases hq : q = p
    · subst hq
      refine ⟨?_, ?_, ?_⟩ <;> rw [hthis] <;> assumption
    · exact entryOk_of_same (h.entry q) (hother q hq) (hqueue q hq) (hflight q hq)
  · by_cases hq : q = p
    · subst hq; exact hplaced
    · exact placed_of_kept (h.placed q) k (by rw [hother q hq]) (hflight q hq).2

/-- R13: the ending of a producer write. -/
theorem mapOk_markDirty {s : State} (h : MapOk s) (p : Fin 512) : MapOk (s.markDirty p) := by
  have hdirty : (s.page p).state = .synced ∨ (s.page p).state = .dirty →
      MapOk (s.setPage p { s.page p with state := .dirty }) := fun hstate => by
    have hnot : (s.page p).state ≠ .stale ∧ (s.page p).state ≠ .copying ∧ (s.page p).state ≠ .unused := by
      rcases hstate with e | e <;> rw [e] <;> decide
    have hattempts : (s.page p).attempts = 0#2 := by
      have hok := (h.entry p).attempts
      unfold AttemptsOk at hok
      rcases hstate with e | e <;> rw [e] at hok <;> exact hok
    have hentry : (s.setPage p { s.page p with state := .dirty }).page p = { s.page p with state := .dirty } :=
      page_setPage_same s p _
    refine mapOk_rewritten h (t := s.setPage p { s.page p with state := .dirty }) serviceKept_of_windows rfl
      (windowsOk_of_kept h.windows serviceKept_of_windows rfl) (fun _ _ => Iff.rfl) ?_ h.once (fun _ _ => Iff.rfl) ?_
      hattempts (placed_of_kept (h.placed p) serviceKept_of_windows ?_ id)
    · exact ⟨fun hin => absurd ((h.entry p).queued.1 hin) hnot.1, nofun⟩
    · exact ⟨nofun, fun hp => absurd ((h.entry p).inFlight.2 hp) hnot.2.1⟩
    · rw [hentry]
      exact ⟨nofun, fun hu => absurd hu hnot.2.2⟩
  unfold State.markDirty
  split
  next e => exact hdirty (.inl e)
  next e => exact hdirty (.inr e)
  · exact h
  · exact h
  · exact h
  · exact h

theorem mapOk_endWrite {s : State} (h : MapOk s) (x : Port) (a : Access) (c : AccessClass) : MapOk (s.endWrite x a c) := by
  unfold State.endWrite
  split
  · exact mapOk_markDirty h _
  · exact h

theorem mapOk_endAccess {s : State} (h : MapOk s) (x : Port) (r : BusResp) (d : List Word) : MapOk (s.endAccess x r d) := by
  unfold State.endAccess
  split
  next a res _ =>
    have hresponded : MapOk (s.respond x r (readBeats a d)) := mapOk_setPort h x _
    dsimp only
    split
    · exact mapOk_endWrite hresponded x a res.cls
    · split
      · exact mapOk_record hresponded _
      · exact hresponded
  · exact h

/-- R8, R127: the report of a window that is ENABLED. -/
theorem mapOk_checkReady {s : State} (h : MapOk s) {w : Fin 8} (hen : s.enabled w = true) : MapOk (s.checkReady w) := by
  unfold State.checkReady
  split
  · exact mapOk_record (mapOk_of_kept h (serviceKept_written hen)) _
  · exact h

/-- R19: while the page in flight is that of an ENABLED window, no window is DRAINING. -/
theorem not_draining {s : State} (h : MapOk s) {p : Fin 512} (hpage : s.engine.page = some p)
    (hen : (s.window (s.owner p)).enable = .enabled) (v : Fin 8) : (s.window v).enable ≠ .draining := fun hv => by
  obtain ⟨q, hq, hrun⟩ := h.windows.draining v hv
  obtain rfl := Option.some.inj (hpage.symm.trans hq)
  rw [owner_eq h.windows (inService_of_draining hv) hrun, hv] at hen
  cases hen

/-- R115 to R122: a copy of a page of an ENABLED window ends, the page going to a state in which it is not in flight. -/
theorem mapOk_copyEnded {s t : State} (h : MapOk s) {p : Fin 512} (hpage : s.engine.page = some p)
    (hen : (s.window (s.owner p)).enable = .enabled) {e : PageEntry} (hwindows : t.windows = s.windows)
    (hpages : t.pages = s.pages.set p.val e) (he : t.engine.page = none) (hused : e.state ≠ .unused)
    (hcopying : e.state ≠ .copying) (hattempts : AttemptsOk e)
    (hqueue : t.copyQueue = if e.state = .stale then p :: s.copyQueue else s.copyQueue) : MapOk t := by
  have hnotin : p ∉ s.copyQueue := fun hin => by
    have hstale := (h.entry p).queued.1 hin
    rw [mapOk_copying h hpage] at hstale; cases hstale
  have hkept : ServiceKept s t := serviceKept_of_windows hwindows
  have hnone : ∀ q, ¬t.engine.page = some q := fun q hq => by rw [he] at hq; cases hq
  obtain ⟨hservice, hrun⟩ := owner_of_inFlight h hpage
  have hwindowsOk : t.WindowsOk := by
    refine ⟨fun w hw => hkept.quiet w (hkept.enabled w ▸ hw) (h.windows.quiet w (hkept.enabled w ▸ hw)), fun w hw => ?_,
      fun w v hne hw hv => ?_, fun w hw => ?_⟩
    · have hs := (hkept.inService w).1 hw
      rw [hkept.desc w hs]; exact h.windows.usable w hs
    · have hsw := (hkept.inService w).1 hw
      have hsv := (hkept.inService v).1 hv
      rw [hkept.desc w hsw, hkept.desc v hsv]; exact h.windows.apart w v hne hsw hsv
    · rw [hkept.enable w] at hw
      exact absurd hw (not_draining h hpage hen w)
  have hthis : t.page p = e := (page_congr (t := s.setPage p e) hpages p).trans (page_setPage_same s p e)
  refine mapOk_rewritten h hkept hpages hwindowsOk (fun q hq => ?_) ?_ ?_ (fun q hq => ?_)
    ⟨fun hc => absurd hc hcopying, fun hp => absurd hp (hnone p)⟩ hattempts ?_
  · rw [hqueue]
    split
    · rw [List.mem_cons]; exact or_iff_right hq
    · exact Iff.rfl
  · rw [hqueue]
    split
    next hstale => exact ⟨fun _ => hstale, fun _ => List.mem_cons_self⟩
    next hstale => exact ⟨fun hin => absurd hin hnotin, fun hs => absurd hs hstale⟩
  · rw [hqueue]
    split
    · exact List.nodup_cons.2 ⟨hnotin, h.once⟩
    · exact h.once
  · refine ⟨fun hp => absurd hp (hnone q), fun hp => absurd (Option.some.inj (hpage.symm.trans hp)).symm hq⟩
  · refine placed_of_used hwindowsOk (w := s.owner p) ?_ ?_ (by rw [hthis]; exact hused)
    · rw [hkept.enabled]; exact (enabled_iff s _).2 hen
    · rw [hkept.desc _ hservice]; exact hrun

/-- R21: the drain of the owner of the page in flight ends. -/
theorem mapOk_endDrain {s t : State} (h : MapOk s) {p : Fin 512} (hpage : s.engine.page = some p)
    (hdrain : (s.window (s.owner p)).enable = .draining)
    (hwindows : t.windows = s.windows.set (s.owner p).val { s.window (s.owner p) with enable := .disabled })
    (hpages : t.pages = s.pages.set p.val { s.page p with state := .unused, attempts := 0#2 })
    (hqueue : t.copyQueue = s.copyQueue) (he : t.engine.page = none) : MapOk t := by
  obtain ⟨hservice, hrun⟩ := owner_of_inFlight h hpage
  have hwindow : ∀ v, t.window v =
      if v = s.owner p then { s.window (s.owner p) with enable := .disabled } else s.window v := fun v =>
    (window_congr (t := s.setWindow (s.owner p) _) hwindows v).trans (window_setWindow s v (s.owner p) _)
  have hother : ∀ {v}, t.inService v → t.window v = s.window v ∧ v ≠ s.owner p := fun {v} hv => by
    have hne : v ≠ s.owner p := fun e => hv (by rw [hwindow v, if_pos e])
    exact ⟨(hwindow v).trans (if_neg hne), hne⟩
  have hback : ∀ {v}, t.inService v → s.inService v := fun {v} hv => by
    unfold State.inService; rw [← (hother hv).1]; exact hv
  have hdesc : ∀ {v}, t.inService v → t.desc v = s.desc v := fun hv => congrArg Window.desc (hother hv).1
  have hapart : ∀ {v}, t.inService v → (s.desc v).inRun p = true → False := fun {v} hv hvrun =>
    (hother hv).2 (owner_unique h.windows (hback hv) hservice hvrun hrun)
  have hnodrain : ∀ v, (t.window v).enable ≠ .draining := fun v hv => by
    have hin := inService_of_draining hv
    rw [(hother hin).1] at hv
    obtain ⟨q, hq, hvrun⟩ := h.windows.draining v hv
    obtain rfl := Option.some.inj (hpage.symm.trans hq)
    exact hapart hin hvrun
  have hthis : (t.page p) = { s.page p with state := .unused, attempts := 0#2 } :=
    (page_congr (t := s.setPage p _) hpages p).trans (page_setPage_same s p _)
  have hpageNe : ∀ q, q ≠ p → t.page q = s.page q := fun q hq =>
    (page_congr (t := s.setPage p _) hpages q).trans (page_setPage_ne s _ hq)
  have hnone : ∀ q, ¬t.engine.page = some q := fun q hq => by rw [he] at hq; cases hq
  have hcopying := mapOk_copying h hpage
  refine ⟨⟨fun v hv => ?_, fun v hv => ?_, fun v u hne hv hu => ?_, fun v hv => absurd hv (hnodrain v)⟩, fun q => ?_,
    fun q => ?_, hqueue ▸ h.once⟩
  · rw [hwindow v]
    split
    · refine h.windows.quiet (s.owner p) (Bool.eq_false_iff.2 fun hen => ?_)
      rw [enabled_iff, hdrain] at hen; cases hen
    next hne =>
      refine h.windows.quiet v ?_
      unfold State.enabled at hv ⊢
      rw [hwindow v, if_neg hne] at hv
      exact hv
  · rw [hdesc hv]; exact h.windows.usable v (hback hv)
  · rw [hdesc hv, hdesc hu]; exact h.windows.apart v u hne (hback hv) (hback hu)
  · by_cases hq : q = p
    · subst hq
      refine ⟨?_, ?_, ?_⟩
      · rw [hqueue, hthis]
        refine ⟨fun hin => ?_, nofun⟩
        rw [(h.entry q).queued.1 hin] at hcopying; cases hcopying
      · rw [hthis]
        exact ⟨nofun, fun e => absurd e (hnone q)⟩
      · rw [hthis]; rfl
    · refine entryOk_of_same (h.entry q) (hpageNe q hq) (by rw [hqueue]) ⟨fun e => absurd e (hnone q), fun e => ?_⟩
      exact absurd (Option.some.inj (hpage.symm.trans e)).symm hq
  · by_cases hq : q = p
    · subst hq
      refine placed_of_unused (by rw [hthis]) fun v hv => Bool.eq_false_iff.2 fun hvrun => ?_
      have hin := inService_of_enabled hv
      rw [hdesc hin] at hvrun
      exact hapart hin hvrun
    · refine ⟨fun hstate => ?_, fun v hv hvrun => ?_, fun v hv => absurd hv (hnodrain v)⟩
      · rw [hpageNe q hq] at hstate
        obtain ⟨v, hv, hvrun⟩ := (h.placed q).owned hstate
        have hne : v ≠ s.owner p := fun e => by
          subst e
          refine hstate ((h.placed q).drained _ hdrain hvrun fun e => hq ?_)
          exact (Option.some.inj (hpage.symm.trans e)).symm
        have heq : t.window v = s.window v := (hwindow v).trans (if_neg hne)
        refine ⟨v, ?_, ?_⟩
        · unfold State.inService; rw [heq]; exact hv
        · unfold State.desc; rw [heq]; exact hvrun
      · have hin := inService_of_enabled hv
        rw [hdesc hin] at hvrun
        rw [hpageNe q hq]
        refine (h.placed q).used v ?_ hvrun
        unfold State.enabled at hv ⊢
        rw [← (hother hin).1]; exact hv

theorem mapOk_copyEndsWell {s : State} (h : MapOk s) {p : Fin 512} (hpage : s.engine.page = some p) :
    MapOk (s.copyEndsWell p) := by
  unfold State.copyEndsWell
  dsimp only
  split
  next hen =>
    have hended : MapOk (s.engineIdle.setPage p { s.page p with state := .synced, attempts := 0#2 }) :=
      mapOk_copyEnded h hpage hen rfl rfl rfl nofun nofun rfl rfl
    exact mapOk_checkReady hended ((enabled_iff s _).2 hen)
  next hdrain =>
    show MapOk (State.record _ _)
    refine mapOk_record (mapOk_endDrain h hpage hdrain ?_ ?_ ?_ ?_) _ <;> rfl
  next hdisabled => exact absurd hdisabled (owner_of_inFlight h hpage).1

/-- R16, R122: the page goes back to the head of the queue, or is BROKEN. -/
theorem mapOk_attemptFailed {s t : State} (h : MapOk s) {p : Fin 512} (hpage : s.engine.page = some p)
    (hen : (s.window (s.owner p)).enable = .enabled) (hwindows : t.windows = s.windows) (hpages : t.pages = s.pages)
    (hqueue : t.copyQueue = s.copyQueue) (he : t.engine.page = none) (w : Fin 8) : MapOk (t.attemptFailed w p) := by
  have hentry : t.page p = s.page p := page_congr hpages p
  unfold State.attemptFailed
  dsimp only
  split
  next hthird =>
    rw [hentry] at hthird ⊢
    refine mapOk_record (mapOk_copyEnded h hpage hen (e := { s.page p with state := .broken }) ?_ ?_ ?_ nofun nofun
      hthird ?_) _
    · exact hwindows
    · exact congrArg (fun ps : Vector PageEntry 512 => ps.set p.val _) hpages
    · exact he
    · exact hqueue
  next hfewer =>
    rw [hentry] at hfewer ⊢
    refine mapOk_record (mapOk_copyEnded h hpage hen (e := { s.page p with state := .stale }) ?_ ?_ ?_ nofun nofun
      hfewer ?_) _
    · exact hwindows
    · exact congrArg (fun ps : Vector PageEntry 512 => ps.set p.val _) hpages
    · exact he
    · exact congrArg (p :: ·) hqueue

theorem mapOk_copyFails {s : State} (h : MapOk s) {p : Fin 512} (hpage : s.engine.page = some p) :
    MapOk (s.copyFails p) := by
  unfold State.copyFails
  dsimp only
  generalize ht : s.engineIdle.record
    { kind := .memoryError, window := some (s.owner p), detail := copyDetail, page := some p,
      count := (s.page p).attempts.setWidth 8 } = t
  have hwindows : t.windows = s.windows := ht ▸ record_windows s.engineIdle _
  have hpages : t.pages = s.pages := ht ▸ record_pages s.engineIdle _
  have hqueue : t.copyQueue = s.copyQueue := ht ▸ record_copyQueue s.engineIdle _
  have hengine : t.engine.page = none := congrArg Engine.page (ht ▸ record_engine s.engineIdle _)
  split
  next hen =>
    refine mapOk_checkReady (mapOk_attemptFailed h hpage hen hwindows hpages hqueue hengine _) ?_
    rw [(serviceSame_attemptFailed t _ p).enabled, (serviceSame_of_windows hwindows).enabled]
    exact (enabled_iff s _).2 hen
  next hdrain =>
    show MapOk (State.record _ _)
    refine mapOk_record (mapOk_endDrain h hpage hdrain ?_ ?_ ?_ ?_) _
    · show t.windows.set _ { t.window (s.owner p) with enable := .disabled } = _
      rw [window_congr hwindows, hwindows]
    · show t.pages.set _ { t.page p with state := .unused, attempts := 0#2 } = _
      rw [page_congr hpages, hpages]
    · exact hqueue
    · exact hengine
  next hdisabled => exact absurd hdisabled (owner_of_inFlight h hpage).1

theorem mapOk_copyResponse {s : State} (h : MapOk s) (r : BusResp) (d : List Word) : MapOk (s.copyResponse r d) := by
  unfold State.copyResponse
  split
  · exact h
  next p hpage =>
    split
    · unfold State.copyOkay
      dsimp only
      split
      · exact h
      · exact mapOk_of_eq h
      · split
        · exact mapOk_of_eq h
        · exact mapOk_copyEndsWell h hpage
    · exact mapOk_copyFails h hpage

theorem mapOk_holderStep {s : State} (h : MapOk s) (q : Requester) (r : BusResp) (d : List Word) :
    MapOk (s.holderStep q r d) := by
  cases q with
  | consumer => exact mapOk_endAccess h .c r d
  | producer => exact mapOk_endAccess h .p r d
  | copy => exact mapOk_copyResponse h r d

theorem mapOk_flipAfter {s : State} (h : MapOk s) (q : Requester) : MapOk (s.flipAfter q) := by
  unfold State.flipAfter
  split
  · exact mapOk_flip (mapOk_of_eq h) _
  · exact mapOk_flip (mapOk_of_eq h) _
  · exact h
  · exact h

/-! ## Window actions -/

theorem runApart_symm {d e : Descriptor} (h : d.runApart e = true) : e.runApart d = true := by
  unfold Descriptor.runApart at h ⊢
  rw [Bool.or_comm]
  exact h

/-- R18: a window comes into service with a run apart from the others, its pages STALE and queued. -/
theorem mapOk_putInService {s : State} (h : MapOk s) {w : Fin 8} (hw : (s.window w).enable = .disabled)
    (hok : s.enableOk w = true) : MapOk (s.putInService w) := by
  obtain ⟨husable, hclear⟩ := (enableOk_iff s w).1 hok
  have hrunOk := runOk_of_usable husable
  have hnotService : ¬s.inService w := fun hs => hs hw
  have hne : ∀ {v}, s.inService v → v ≠ w := fun hv e => hnotService (e ▸ hv)
  have hapart : ∀ v, s.inService v → (s.desc w).runApart (s.desc v) = true := fun v hv =>
    ((clearOf_iff _ _).1 (hclear v (hne hv) hv)).1
  have hshares : ∀ {v p}, s.inService v → (s.desc w).inRun p = true → (s.desc v).inRun p = true → False :=
    fun {v p} hv hp hq => (runApart_iff hrunOk (runOk_of_usable (h.windows.usable v hv))).1 (hapart v hv) p ⟨hp, hq⟩
  have hunused : ∀ p, (s.desc w).inRun p = true → (s.page p).state = .unused := fun p hp => by
    by_contra hused
    obtain ⟨v, hv, hvrun⟩ := (h.placed p).owned hused
    exact hshares hv hp hvrun
  have hwindow : ∀ v, (s.putInService w).window v = if v = w then (s.window w).inService else s.window v := fun v =>
    window_setWindow _ v w _
  have hsame : ∀ {v}, v ≠ w → (s.putInService w).window v = s.window v := fun hv => (hwindow _).trans (if_neg hv)
  have hmine : (s.putInService w).window w = (s.window w).inService := (hwindow w).trans (if_pos rfl)
  have hdesc : ∀ v, (s.putInService w).desc v = s.desc v := fun v => by
    unfold State.desc
    rw [hwindow v]
    split
    next e => rw [e]; rfl
    · rfl
  have hback : ∀ {v}, v ≠ w → (s.putInService w).inService v → s.inService v := fun hv hin => by
    unfold State.inService at hin ⊢; rw [← hsame hv]; exact hin
  have henabled : ∀ {v}, v ≠ w → (s.putInService w).enabled v = s.enabled v := fun hv => by
    unfold State.enabled; rw [hsame hv]
  have hpage : ∀ p, (s.putInService w).page p =
      if (s.desc w).inRun p = true then { state := .stale, bank := .a, attempts := 0#2 } else s.page p := fun p =>
    page_mapPages s (fun q e => if (s.desc w).inRun q then { state := .stale, bank := .a, attempts := 0#2 } else e) p
  have hmem : ∀ p, p ∈ (s.putInService w).copyQueue ↔ p ∈ s.copyQueue ∨ (s.desc w).inRun p = true := fun p => by
    show p ∈ s.copyQueue ++ (s.desc w).run ↔ _
    rw [List.mem_append, mem_run hrunOk]
  refine ⟨⟨fun v hv => ?_, fun v hv => ?_, fun v u hvu hv hu => ?_, fun v hv => ?_⟩, fun p => ?_, fun p => ?_, ?_⟩
  · have hvw : v ≠ w := fun e => by
      subst e
      unfold State.enabled at hv
      rw [hmine] at hv; cases hv
    rw [henabled hvw] at hv
    rw [hsame hvw]
    exact h.windows.quiet v hv
  · rw [hdesc]
    by_cases hvw : v = w
    · rw [hvw]; exact husable
    · exact h.windows.usable v (hback hvw hv)
  · rw [hdesc, hdesc]
    by_cases hvw : v = w
    · subst hvw
      exact hapart u (hback (Ne.symm hvu) hu)
    · by_cases huw : u = w
      · subst huw
        exact runApart_symm (hapart v (hback hvw hv))
      · exact h.windows.apart v u hvu (hback hvw hv) (hback huw hu)
  · have hvw : v ≠ w := fun e => by
      subst e
      rw [hmine] at hv; cases hv
    rw [hsame hvw] at hv
    rw [hdesc]
    exact h.windows.draining v hv
  · by_cases hp : (s.desc w).inRun p = true
    · have hentry := (hpage p).trans (if_pos hp)
      refine ⟨?_, ?_, ?_⟩
      · rw [hmem, hentry]; exact ⟨fun _ => rfl, fun _ => .inr hp⟩
      · rw [hentry]
        refine ⟨nofun, fun e => ?_⟩
        have hcopying := (h.entry p).inFlight.2 e
        rw [hunused p hp] at hcopying; cases hcopying
      · rw [hentry]
        show (0#2 : BitVec 2) ≠ 3#2
        decide
    · exact entryOk_of_same (h.entry p) ((hpage p).trans (if_neg hp)) ((hmem p).trans (or_iff_left hp)) Iff.rfl
  · by_cases hp : (s.desc w).inRun p = true
    · have hentry := (hpage p).trans (if_pos hp)
      have hused : ((s.putInService w).page p).state ≠ .unused := by rw [hentry]; nofun
      refine ⟨fun _ => ⟨w, ?_, by rw [hdesc]; exact hp⟩, fun _ _ _ => hused, fun v hv hvrun => ?_⟩
      · unfold State.inService; rw [hmine]; nofun
      · have hvw : v ≠ w := fun e => by
          subst e
          rw [hmine] at hv; cases hv
        rw [hdesc] at hvrun
        exact (hshares (hback hvw (inService_of_draining hv)) hp hvrun).elim
    · have hentry := (hpage p).trans (if_neg hp)
      have hother : ∀ {v}, (s.desc v).inRun p = true → v ≠ w := fun hv e => hp (e ▸ hv)
      refine ⟨fun hused => ?_, fun v hv hvrun => ?_, fun v hv hvrun hflight => ?_⟩
      · rw [hentry] at hused
        obtain ⟨v, hv, hvrun⟩ := (h.placed p).owned hused
        refine ⟨v, ?_, by rw [hdesc]; exact hvrun⟩
        unfold State.inService; rw [hsame (hother hvrun)]; exact hv
      · rw [hdesc] at hvrun
        rw [hentry]
        exact (h.placed p).used v (henabled (hother hvrun) ▸ hv) hvrun
      · rw [hdesc] at hvrun
        rw [hsame (hother hvrun)] at hv
        rw [hentry]
        exact (h.placed p).drained v hv hvrun hflight
  · refine h.once.append (run_nodup hrunOk) fun p hin hrun => ?_
    have hstale := (h.entry p).queued.1 hin
    rw [hunused p ((mem_run hrunOk p).1 hrun)] at hstale
    cases hstale

/-- R19, R20: an ENABLED window leaves service, DRAINING where its page is in flight, its other pages UNUSED. -/
theorem mapOk_leaveService {s : State} (h : MapOk s) {w : Fin 8} (hen : s.enabled w = true) {next : EnableState}
    (hnext : next ≠ .enabled)
    (hflight : next = .draining ↔ ∃ p, s.engine.page = some p ∧ (s.desc w).inRun p = true) :
    MapOk (s.leaveService w next) := by
  have hservice := inService_of_enabled hen
  have hwindow : ∀ v, (s.leaveService w next).window v =
      if v = w then { s.window w with enable := next, commit := .isOpen, bracket := .closed, readyPending := false }
      else s.window v := fun v => window_setWindow _ v w _
  have hsame : ∀ {v}, v ≠ w → (s.leaveService w next).window v = s.window v := fun hv => (hwindow _).trans (if_neg hv)
  have hmine : ((s.leaveService w next).window w).enable = next := by rw [hwindow w, if_pos rfl]
  have hdesc : ∀ v, (s.leaveService w next).desc v = s.desc v := fun v => by
    unfold State.desc
    rw [hwindow v]
    split
    next e => rw [e]
    · rfl
  have hback : ∀ {v}, (s.leaveService w next).inService v → s.inService v := fun {v} hin => by
    by_cases hv : v = w
    · rw [hv]; exact hservice
    · unfold State.inService at hin ⊢; rw [← hsame hv]; exact hin
  have hnotEnabled : ∀ {v}, (s.leaveService w next).enabled v = true → v ≠ w := fun hv e => by
    subst e
    rw [enabled_iff, hmine] at hv
    exact hnext hv
  have henabled : ∀ {v}, v ≠ w → (s.leaveService w next).enabled v = s.enabled v := fun hv => by
    unfold State.enabled; rw [hsame hv]
  have hpage : ∀ p, (s.leaveService w next).page p =
      if (s.desc w).inRun p = true ∧ s.engine.page ≠ some p then (s.page p).freed else s.page p := fun p => by
    show (s.mapPages fun q e => if (s.desc w).inRun q && s.engine.page != some q then e.freed else e).page p = _
    rw [page_mapPages]
    simp only [Bool.and_eq_true, bne_iff_ne]
  have hmem : ∀ p, p ∈ (s.leaveService w next).copyQueue ↔ p ∈ s.copyQueue ∧ (s.desc w).inRun p = false := fun p => by
    show p ∈ s.copyQueue.filter (fun p => !(s.desc w).inRun p) ↔ _
    rw [List.mem_filter, Bool.not_eq_true']
  have hshares : ∀ {v p}, v ≠ w → s.inService v → (s.desc w).inRun p = true → (s.desc v).inRun p = true → False :=
    fun hv hin hp hvp => hv (owner_unique h.windows hin hservice hvp hp)
  refine ⟨⟨fun v hv => ?_, fun v hv => ?_, fun v u hvu hv hu => ?_, fun v hv => ?_⟩, fun p => ?_, fun p => ?_,
    h.once.filter _⟩
  · by_cases hvw : v = w
    · rw [hwindow v, if_pos hvw]; exact ⟨rfl, rfl, rfl⟩
    · rw [hsame hvw]; exact h.windows.quiet v (henabled hvw ▸ hv)
  · rw [hdesc]; exact h.windows.usable v (hback hv)
  · rw [hdesc, hdesc]; exact h.windows.apart v u hvu (hback hv) (hback hu)
  · rw [hdesc]
    by_cases hvw : v = w
    · subst hvw
      exact hflight.1 (hmine.symm.trans hv)
    · rw [hsame hvw] at hv
      exact h.windows.draining v hv
  · by_cases hp : (s.desc w).inRun p = true ∧ s.engine.page ≠ some p
    · have hentry := (hpage p).trans (if_pos hp)
      refine ⟨?_, ?_, ?_⟩
      · rw [hmem, hentry, hp.1]; exact ⟨fun e => absurd e.2 nofun, nofun⟩
      · rw [hentry]; exact ⟨nofun, fun e => absurd e hp.2⟩
      · rw [hentry]; rfl
    · have hentry := (hpage p).trans (if_neg hp)
      refine entryOk_of_same (h.entry p) hentry ?_ Iff.rfl
      rw [hmem]
      refine and_iff_left_of_imp fun hin => Bool.eq_false_iff.2 fun hrun => hp ⟨hrun, fun hpage => ?_⟩
      have hstale := (h.entry p).queued.1 hin
      rw [mapOk_copying h hpage] at hstale; cases hstale
  · by_cases hp : (s.desc w).inRun p = true ∧ s.engine.page ≠ some p
    · refine placed_of_unused (by rw [(hpage p).trans (if_pos hp)]; rfl) fun v hv => Bool.eq_false_iff.2 fun hvrun => ?_
      have hvw := hnotEnabled hv
      rw [hdesc] at hvrun
      rw [henabled hvw] at hv
      exact hshares hvw (inService_of_enabled hv) hp.1 hvrun
    · have hentry := (hpage p).trans (if_neg hp)
      refine ⟨fun hused => ?_, fun v hv hvrun => ?_, fun v hv hvrun hne => ?_⟩
      · rw [hentry] at hused
        obtain ⟨v, hv, hvrun⟩ := (h.placed p).owned hused
        refine ⟨v, ?_, by rw [hdesc]; exact hvrun⟩
        by_cases hvw : v = w
        · subst hvw
          have hpage : s.engine.page = some p := by
            by_contra hne
            exact hp ⟨hvrun, hne⟩
          unfold State.inService
          rw [hmine, hflight.2 ⟨p, hpage, hvrun⟩]
          nofun
        · unfold State.inService; rw [hsame hvw]; exact hv
      · have hvw := hnotEnabled hv
        rw [hdesc] at hvrun
        rw [hentry]
        exact (h.placed p).used v (henabled hvw ▸ hv) hvrun
      · rw [hdesc] at hvrun
        rw [hentry]
        by_cases hvw : v = w
        · subst hvw
          exact absurd ⟨hvrun, hne⟩ hp
        · rw [hsame hvw] at hv
          exact (h.placed p).drained v hv hvrun hne

theorem inFlight_iff (s : State) (w : Fin 8) :
    s.inFlight w = true ↔ ∃ p, s.engine.page = some p ∧ (s.desc w).inRun p = true := by
  unfold State.inFlight
  split
  next p hp =>
    refine ⟨fun hrun => ⟨p, hp, hrun⟩, ?_⟩
    rintro ⟨q, hq, hrun⟩
    rw [Option.some.inj (hp.symm.trans hq)]
    exact hrun
  next hnone =>
    refine ⟨nofun, ?_⟩
    rintro ⟨q, hq, -⟩
    rw [hnone] at hq; cases hq

theorem mapOk_disarmed {s : State} (h : MapOk s) {w : Fin 8} (hen : s.enabled w = true) : MapOk (s.disarmed w) := by
  unfold State.disarmed
  dsimp only
  split <;> exact mapOk_of_kept h (serviceKept_written hen)

/-! ## Resets -/

/-- R24, R131: no window in service, no page in use, nothing queued and nothing in flight. -/
theorem mapOk_cleared {s : State} (hwindow : ∀ w, (s.window w).enable = .disabled ∧ QuietWindow (s.window w))
    (hpage : ∀ p, s.page p = PageEntry.reset) (hqueue : s.copyQueue = []) (he : s.engine.page = none) : MapOk s where
  windows := by
    have hnot : ∀ w, ¬s.inService w := fun w hs => hs (hwindow w).1
    refine ⟨fun w _ => (hwindow w).2, fun w hw => absurd hw (hnot w), fun w v _ hw => absurd hw (hnot w), fun w hw => ?_⟩
    rw [(hwindow w).1] at hw; cases hw
  entry p := by
    refine ⟨?_, ?_, ?_⟩ <;> rw [hpage p]
    · rw [hqueue]; exact ⟨nofun, nofun⟩
    · rw [he]; exact ⟨nofun, nofun⟩
    · rfl
  placed p := placed_of_unused (by rw [hpage p]; rfl) fun w hw => by
    rw [enabled_iff, (hwindow w).1] at hw; cases hw
  once := hqueue ▸ List.nodup_nil

theorem mapOk_engineReset (s : State) : MapOk s.engineReset := by
  refine mapOk_rejudge (mapOk_cleared (fun w => ?_) (fun p => ?_) rfl rfl)
  · unfold State.window
    rw [vecMap_getElem]
    exact ⟨rfl, rfl, rfl, rfl⟩
  · unfold State.page
    exact Vector.getElem_replicate _

theorem mapOk_hardReset (s : State) : MapOk s.hardReset := by
  refine mapOk_cleared (fun w => ?_) (fun p => ?_) rfl rfl
  · rw [window_hardReset]
    exact ⟨rfl, rfl, rfl, rfl⟩
  · exact Vector.getElem_replicate _

/-! ## The statements -/

/-- R3: a descriptor that is written is that of a window out of service. -/
theorem serviceKept_descriptor {s : State} {w : Fin 8} (d : Descriptor) (hw : (s.window w).enable = .disabled) :
    ServiceKept s (s.setWindow w { s.window w with desc := d }) where
  enable v := by
    rw [window_setWindow]
    split
    next e => rw [e]
    · rfl
  desc v hv := by
    unfold State.desc
    have hne : v ≠ w := fun e => by subst e; exact hv hw
    rw [window_setWindow_ne s _ hne]
  quiet v _ hq := by
    rw [window_setWindow]
    split
    next e => subst e; exact hq
    · exact hq

theorem mapOk_change {o : Bool} {s t : State} (h : MapOk s) (hj : s.JudgedOk) (he : EngineOk s.engine) (c : Change o s t) : MapOk t := by
  have hen : ∀ {w}, (s.window w).enable = .enabled → s.enabled w = true := fun hw => (enabled_iff s _).2 hw
  cases c with
  | unlawed => exact mapOk_of_eq h
  | inputs => exact mapOk_of_eq h
  | freed => exact mapOk_of_eq h
  | mgmt => exact mapOk_of_eq h
  | timer => exact mapOk_of_eq h
  | freeze => exact mapOk_of_eq h
  | record e => exact mapOk_record h e
  | pop => exact mapOk_of_eq h
  | evmask => exact mapOk_of_eq h
  | limit => exact mapOk_of_eq h
  | holdMax => exact mapOk_of_eq h
  | descriptor w d hw => exact mapOk_of_kept h (serviceKept_descriptor d hw)
  | judge x a => exact mapOk_judgeAccess h x a
  | misformed x a => exact mapOk_setPort h x _
  | timeOut => exact mapOk_of_eq h
  | grant q => exact mapOk_rejudge (mapOk_grantTo h hj he q)
  | response q m r d => exact mapOk_rejudge (mapOk_flipAfter (mapOk_holderStep (mapOk_of_eq h) q r d) q)
  | deliver => exact mapOk_deliver h
  | enable w hw hok => exact mapOk_rejudge (mapOk_putInService h hw hok)
  | drain w hw hf =>
    exact mapOk_rejudge (mapOk_leaveService h (hen hw) nofun ⟨fun _ => (inFlight_iff s w).1 hf, fun _ => rfl⟩)
  | disable w hw hf =>
    refine mapOk_rejudge (mapOk_record (mapOk_leaveService h (hen hw) (next := .disabled) nofun ⟨nofun, fun hp => ?_⟩) _)
    rw [(inFlight_iff s w).2 hp] at hf; cases hf
  | resync w hw => exact mapOk_rejudge (mapOk_returnBroken h (hen hw))
  | disarm w hw => exact mapOk_rejudge (mapOk_disarmed h (hen hw))
  | engineReset => exact mapOk_engineReset s
  | hardReset => exact mapOk_hardReset s

/-- The law of the map with the laws it needs: a PENDING marker is judged, and the engine's phase says whether it has a
page. -/
structure MapAndFriendsOk (s : State) : Prop where
  map : MapOk s
  judged : s.JudgedOk
  arbiter : ArbiterAndEngineOk s

theorem mapAndFriendsOk_change {o : Bool} {s t : State} (h : MapAndFriendsOk s) (c : Change o s t) : MapAndFriendsOk t :=
  ⟨mapOk_change h.map h.judged h.arbiter.engine c, judgedOk_change h.judged c, arbiterAndEngineOk_change h.arbiter c⟩

theorem mapAndFriendsOk_step {s t : State} (h : s.Inv) (hstep : step s = .next t) : MapAndFriendsOk t :=
  kept_of_step mapAndFriendsOk_change
    ⟨mapOk_of_laws h.windows h.pages, h.judged, ⟨h.arbiter, engineOk_of_pagesOk h.pages⟩⟩ hstep

/-- Settles O58: every piece of a step keeps the law of the windows, with that of the Page Map. -/
theorem windowLawsAreKept : Obligations.WindowLawsAreKept := fun _ _ h hstep => (mapAndFriendsOk_step h hstep).map.windows

/-- Settles O59: every piece of a step keeps the law of the Page Map, with those of the windows and of the engine. -/
theorem pageLawsAreKept : Obligations.PageLawsAreKept := fun _ _ h hstep =>
  pagesOk_of_mapOk (mapAndFriendsOk_step h hstep).map (mapAndFriendsOk_step h hstep).arbiter.engine

end Sys2Proof.Laws
end

section
/-! The writes of the register file (R3, R66 to R72, R87, R161, R164, R174, R175) and the requests that name nothing
(R170, R174, R177), each by the branches of its own operation. Settles O8, O9, O17, O19 and O20. -/

namespace Sys2Proof.Laws

open Sys2Proof Sys2Proof.Machine

/-! ## A transaction from a settled state with the port ready -/

/-- R169: a transaction that returns its status byte alone. -/
theorem event_answered {s : State} (body : State → State × Status) (hp : s.portReady) (hs : s.Settled) :
    s.event (fun u => u.transactStatus body) = .next ((body s).1.answer [(body s).2.code]) := by
  rw [event_settled _ hs, transactStatus_ready _ _ hp]

/-- The answer of an operation whose outcome is known. -/
theorem answered {r : State × Status} {t : State} {code : Status} (h : r = (t, code)) :
    (.next (r.1.answer [r.2.code]) : Host.Outcome State Fault Refusal) = .next (t.answer [code.code]) := by rw [h]

section
variable {s : State} (hp : s.portReady) (hs : s.Settled)
include hp hs

theorem exec_writeReg (n : BitVec 16) (v : Word) :
    exec (.writeReg n v) s = .next ((s.writeRegister n v).1.answer [(s.writeRegister n v).2.code]) :=
  event_answered (fun t => t.writeRegister n v) hp hs

theorem exec_descriptorWrite (w k : Fin 8) (v : Word) :
    exec (.descriptorWrite w k v) s = .next ((s.writeDescriptor w k v).1.answer [(s.writeDescriptor w k v).2.code]) :=
  event_answered (fun t => t.writeDescriptor w k v) hp hs

theorem exec_devstatWrite (v : Word) :
    exec (.devstatWrite v) s = .next ((s.writeDevstat v).1.answer [(s.writeDevstat v).2.code]) := event_answered (fun t => t.writeDevstat v) hp hs

theorem exec_devctlWrite (v : Word) :
    exec (.devctlWrite v) s = .next ((s.writeDevctl v).1.answer [(s.writeDevctl v).2.code]) := event_answered (fun t => t.writeDevctl v) hp hs

theorem exec_evmaskWrite (v : Word) :
    exec (.evmaskWrite v) s = .next ((s.writeEvmask v).1.answer [(s.writeEvmask v).2.code]) := event_answered (fun t => t.writeEvmask v) hp hs

theorem exec_fmodeWrite (v : Word) :
    exec (.fmodeWrite v) s = .next ((s.writeFmode v).1.answer [(s.writeFmode v).2.code]) := event_answered (fun t => t.writeFmode v) hp hs

theorem exec_fpreWrite (v : Word) :
    exec (.fpreWrite v) s = .next ((s.writeFpre v).1.answer [(s.writeFpre v).2.code]) := event_answered (fun t => t.writeFpre v) hp hs

theorem exec_fperWrite (v : Word) :
    exec (.fperWrite v) s = .next ((s.writeFper v).1.answer [(s.writeFper v).2.code]) := event_answered (fun t => t.writeFper v) hp hs

theorem exec_fcutWrite (v : Word) :
    exec (.fcutWrite v) s = .next ((s.writeFcut v).1.answer [(s.writeFcut v).2.code]) := event_answered (fun t => t.writeFcut v) hp hs

theorem exec_fminWrite (v : Word) :
    exec (.fminWrite v) s = .next ((s.writeFmin v).1.answer [(s.writeFmin v).2.code]) := event_answered (fun t => t.writeFmin v) hp hs

theorem exec_fndivWrite (v : Word) :
    exec (.fndivWrite v) s = .next ((s.writeFndiv v).1.answer [(s.writeFndiv v).2.code]) := event_answered (fun t => t.writeFndiv v) hp hs

theorem exec_deflimWrite (g : Fin 4) (v : Word) :
    exec (.deflimWrite g v) s = .next ((s.writeDeflim g v).1.answer [(s.writeDeflim g v).2.code]) :=
  event_answered (fun t => t.writeDeflim g v) hp hs

end

/-! ## FMODE (R72) -/

theorem writeFmode_off {s : State} {v : Word} (h : v.extractLsb' 0 2 = 0#2) :
    s.writeFmode v = ({ s with timer := s.timer.setMode .off }, .ok) := by
  unfold State.writeFmode
  rw [h]; rfl

theorem writeFmode_internal {s : State} {v : Word} (h : v.extractLsb' 0 2 = 1#2) :
    s.writeFmode v = ({ s with timer := s.timer.setMode .internal }, .ok) := by
  unfold State.writeFmode
  rw [h]; rfl

theorem writeFmode_external {s : State} {v : Word} (h : v.extractLsb' 0 2 = 2#2) :
    s.writeFmode v = ({ s with timer := s.timer.setMode .external }, .ok) := by
  unfold State.writeFmode
  rw [h]; rfl

theorem writeFmode_refused {s : State} {v : Word} (h : v.extractLsb' 0 2 = 3#2) : s.writeFmode v = (s, .refusedConfig) := by
  unfold State.writeFmode
  rw [h]; rfl

/-- Settles O8: the four values of the mode field are the four branches of `State.writeFmode`. -/
theorem modeWriteRestartsTheFrame : Obligations.ModeWriteRestartsTheFrame := by
  intro v s hport hsettled
  have hexec := exec_fmodeWrite hport hsettled v
  exact ⟨fun h => hexec.trans (answered (writeFmode_off h)), fun h => hexec.trans (answered (writeFmode_internal h)),
    fun h => hexec.trans (answered (writeFmode_external h)), fun h => hexec.trans (answered (writeFmode_refused h))⟩

/-! ## The limits of the Frame Timer (R66 to R71) -/

theorem writeFper_off {s : State} {v : Word} (hv : s.timer.fperOk v = true) (hmode : s.timer.mode = .off) :
    s.writeFper v = ({ s with timer := { s.timer with fper := v.setWidth 24 } }, .ok) := by
  unfold State.writeFper
  rw [if_pos hv, hmode]

theorem writeFper_running {s : State} {v : Word} (hv : s.timer.fperOk v = true) (hmode : s.timer.mode ≠ .off) :
    s.writeFper v = ({ s with timer := { s.timer with pendFper := some (v.setWidth 24) } }, .ok) := by
  unfold State.writeFper
  rw [if_pos hv]
  split
  next h => exact absurd h hmode
  · rfl
  · rfl

theorem writeFper_refused {s : State} {v : Word} (hv : ¬s.timer.fperOk v = true) : s.writeFper v = (s, .refusedConfig) := by
  unfold State.writeFper
  exact if_neg hv

theorem writeFcut_off {s : State} {v : Word} (hv : s.timer.fcutOk v = true) (hmode : s.timer.mode = .off) :
    s.writeFcut v = ({ s with timer := { s.timer with fcut := v.setWidth 24 } }, .ok) := by
  unfold State.writeFcut
  rw [if_pos hv, hmode]

theorem writeFcut_running {s : State} {v : Word} (hv : s.timer.fcutOk v = true) (hmode : s.timer.mode ≠ .off) :
    s.writeFcut v = ({ s with timer := { s.timer with pendFcut := some (v.setWidth 24) } }, .ok) := by
  unfold State.writeFcut
  rw [if_pos hv]
  split
  next h => exact absurd h hmode
  · rfl
  · rfl

theorem writeFcut_refused {s : State} {v : Word} (hv : ¬s.timer.fcutOk v = true) : s.writeFcut v = (s, .refusedConfig) := by
  unfold State.writeFcut
  exact if_neg hv

theorem mem_fpreValues (v : Word) : [1#32, 4#32, 16#32, 64#32].contains v = true ↔
    v = 1#32 ∨ v = 4#32 ∨ v = 16#32 ∨ v = 64#32 := by simp

theorem mem_fndivValues (v : Word) : [1#32, 2#32, 4#32, 8#32].contains v = true ↔
    v = 1#32 ∨ v = 2#32 ∨ v = 4#32 ∨ v = 8#32 := by simp

/-- Settles O9: each write is taken in the branch of its own test, FPER and FCUT by the mode, and is refused elsewhere. -/
theorem timerLimitWrites : Obligations.TimerLimitWrites := by
  intro v s hport hsettled
  have hfper := exec_fperWrite hport hsettled v
  have hfcut := exec_fcutWrite hport hsettled v
  have hfpre := exec_fpreWrite hport hsettled v
  have hfmin := exec_fminWrite hport hsettled v
  have hfndiv := exec_fndivWrite hport hsettled v
  refine ⟨fun h => ?fper, fun h => ?fperRefused, fun h => ?fcut, fun h => ?fcutRefused, fun h => ?fpre,
    fun h => ?fpreRefused, fun h => ?fmin, fun h => ?fminRefused, fun h => ?fndiv, fun h => ?fndivRefused⟩
  case fper =>
    have hv := (fperOk_iff s.timer v).2 h
    exact ⟨fun hmode => hfper.trans (answered (writeFper_off hv hmode)), fun hmode => hfper.trans (answered (writeFper_running hv hmode))⟩
  case fperRefused => exact hfper.trans (answered (writeFper_refused fun hv => h ((fperOk_iff s.timer v).1 hv)))
  case fcut =>
    have hv := (fcutOk_iff s.timer v).2 h
    exact ⟨fun hmode => hfcut.trans (answered (writeFcut_off hv hmode)), fun hmode => hfcut.trans (answered (writeFcut_running hv hmode))⟩
  case fcutRefused => exact hfcut.trans (answered (writeFcut_refused fun hv => h ((fcutOk_iff s.timer v).1 hv)))
  case fpre => exact hfpre.trans (answered (if_pos ((mem_fpreValues v).2 h)))
  case fpreRefused => exact hfpre.trans (answered (if_neg fun hv => h ((mem_fpreValues v).1 hv)))
  case fmin => exact hfmin.trans (answered (if_pos h))
  case fminRefused => exact hfmin.trans (answered (if_neg h))
  case fndiv => exact hfndiv.trans (answered (if_pos ((mem_fndivValues v).2 h)))
  case fndivRefused => exact hfndiv.trans (answered (if_neg fun hv => h ((mem_fndivValues v).1 hv)))

/-! ## Requests that name nothing -/

/-- R174: the numbers that no write of its own belongs to: those that name no register, and the read-only ones. -/
theorem registerNamed_of_noWriteOfItsOwn {n : BitVec 16} (h : noWriteOfItsOwn n = true) :
    registerNamed n = none ∨ registerNamed n = some .deviceId ∨ registerNamed n = some .counter ∨
      registerNamed n = some .frameNumber ∨ registerNamed n = some .devqueue ∨
      (∃ g, registerNamed n = some (.groupStatus g)) ∨ (∃ w k, registerNamed n = some (.windowStatus w k)) ∨
      ∃ p, registerNamed n = some (.pageView p) := by
  unfold noWriteOfItsOwn at h
  generalize registerNamed n = named at h ⊢
  cases named with
  | none => exact .inl rfl
  | some r =>
    cases r with
    | deviceId => exact .inr (.inl rfl)
    | counter => exact .inr (.inr (.inl rfl))
    | frameNumber => exact .inr (.inr (.inr (.inl rfl)))
    | devqueue => exact .inr (.inr (.inr (.inr (.inl rfl))))
    | groupStatus g => exact .inr (.inr (.inr (.inr (.inr (.inl ⟨g, rfl⟩)))))
    | windowStatus w k => exact .inr (.inr (.inr (.inr (.inr (.inr (.inl ⟨w, k, rfl⟩))))))
    | pageView p => exact .inr (.inr (.inr (.inr (.inr (.inr (.inr ⟨p, rfl⟩))))))
    | devstat => exact absurd h Bool.false_ne_true
    | devctl => exact absurd h Bool.false_ne_true
    | evmask => exact absurd h Bool.false_ne_true
    | fmode => exact absurd h Bool.false_ne_true
    | fpre => exact absurd h Bool.false_ne_true
    | fper => exact absurd h Bool.false_ne_true
    | fcut => exact absurd h Bool.false_ne_true
    | fmin => exact absurd h Bool.false_ne_true
    | fndiv => exact absurd h Bool.false_ne_true
    | groupControl g => exact absurd h Bool.false_ne_true
    | descriptor w k => exact absurd h Bool.false_ne_true

/-- R174: a write of a register that has no write of its own. -/
theorem writeRegister_of_none {n : BitVec 16} (v : Word) (s : State) (h : noWriteOfItsOwn n = true) :
    s.writeRegister n v = (s, .badCommand) := by
  unfold State.writeRegister
  rcases registerNamed_of_noWriteOfItsOwn h with k | k | k | k | k | ⟨g, k⟩ | ⟨w, j, k⟩ | ⟨p, k⟩ <;> rw [k]

/-- R177: a window argument above 7. -/
theorem windowAction_above {arg : Byte} (h : 8 ≤ arg.toNat) (act : State → Fin 8 → State × Status) (s : State) :
    s.windowAction arg act = (s, .badCommand) := by
  unfold State.windowAction
  exact if_neg (Nat.not_lt.2 h)

/-- R170: an unknown command byte. -/
theorem exec_badCommand {b : Byte} {s : State} (hp : s.portReady) (hs : s.Settled) (h : b ∉ commandBytes) :
    exec (.badCommand b) s = .next (s.answer [0x06#8]) := by
  have hnot : commandBytes.contains b = false := Bool.eq_false_iff.2 fun hb => h (List.contains_iff_mem.1 hb)
  show s.event (fun u => if commandBytes.contains b then u else u.transactStatus fun t => (t, .badCommand)) = _
  rw [hnot]
  exact event_answered (fun t => (t, .badCommand)) hp hs

/-- R177: an unknown action code. -/
theorem exec_unknownAction {code : Byte} (arg : Byte) {s : State} (hp : s.portReady) (hs : s.Settled)
    (h : code ∉ actionCodes) : exec (.unknownAction code arg) s = .next (s.answer [0x06#8]) := by
  have hnot : actionCodes.contains code = false := Bool.eq_false_iff.2 fun hc => h (List.contains_iff_mem.1 hc)
  show s.event (fun u => if actionCodes.contains code then u else u.transactStatus fun t => (t, .badCommand)) = _
  rw [hnot]
  exact event_answered (fun t => (t, .badCommand)) hp hs

/-- Settles O17: each request meets the branch of its own operation that answers BAD_COMMAND. -/
theorem unknownRequestsAreBadCommand : Obligations.UnknownRequestsAreBadCommand := by
  intro s hport hsettled
  refine ⟨fun n v h => (exec_writeReg hport hsettled n v).trans (answered (writeRegister_of_none v s h)),
    fun b h => exec_badCommand hport hsettled h, fun code arg h => exec_unknownAction arg hport hsettled h, fun arg h => ?_⟩
  have habove : ∀ act : State → Fin 8 → State × Status,
      s.event (fun u => u.transactStatus fun t => t.windowAction arg act) = .next (s.answer [0x06#8]) := fun act =>
    (event_answered (fun t => t.windowAction arg act) hport hsettled).trans (answered (windowAction_above h act s))
  exact ⟨habove _, habove _, habove _, habove _⟩

/-! ## The device's own registers (R161, R164, R165, R175) -/

theorem writeDevctl_taken {s : State} {v : Word} (h : v.extractLsb' 8 3 ≠ 0#3) :
    s.writeDevctl v = ({ s with irqEnable := v.getLsbD 0, holdMax := v.extractLsb' 8 3 }, .ok) := if_neg h

theorem writeDevctl_refused {s : State} {v : Word} (h : v.extractLsb' 8 3 = 0#3) :
    s.writeDevctl v = (s, .refusedConfig) := if_pos h

theorem writeDevstat_eq (s : State) (v : Word) :
    s.writeDevstat v = ({ s with overrun := if v.getLsbD 8 then false else s.overrun }, .ok) := by
  unfold State.writeDevstat
  cases v.getLsbD 8 with
  | true => rw [Bool.not_true, Bool.and_false]; rfl
  | false => rw [Bool.not_false, Bool.and_true]; rfl

theorem irq_iff (s : State) : s.irq = true ↔ s.irqEnable = true ∧ (s.events ≠ [] ∨ s.overrun = true) := by
  unfold State.irq
  simp

/-- Settles O19: the writes are the branches of their operations, and IRQ is read off its definition. -/
theorem deviceRegisterWrites : Obligations.DeviceRegisterWrites := by
  refine ⟨fun v s hport hsettled => ?_, irq_iff⟩
  have hdevctl := exec_devctlWrite hport hsettled v
  exact ⟨(exec_devstatWrite hport hsettled v).trans (answered (writeDevstat_eq s v)),
    exec_evmaskWrite hport hsettled v, fun h => hdevctl.trans (answered (writeDevctl_taken h)),
    fun h => hdevctl.trans (answered (writeDevctl_refused h))⟩

/-! ## DEFLIM (R87) -/

theorem toNat_setWidth4 {v : Word} (h : v.toNat ≤ 15) : (v.setWidth 4).toNat = v.toNat := by
  rw [BitVec.toNat_setWidth]
  exact Nat.mod_eq_of_lt (by omega)

theorem writeDeflim_taken {s : State} (g : Fin 4) {v : Word} (h : v.toNat ≤ 15) :
    s.writeDeflim g v = (s.setGroup g { s.group g with
      limit := v.setWidth 4,
      count := if v.toNat < (s.group g).count.toNat then v.setWidth 4 else (s.group g).count }, .ok) := by
  unfold State.writeDeflim Group.setLimit
  rw [if_pos h, toNat_setWidth4 h]

theorem writeDeflim_refused {s : State} (g : Fin 4) {v : Word} (h : 15 < v.toNat) :
    s.writeDeflim g v = (s, .refusedConfig) := if_neg (Nat.not_le.2 h)

/-- R88: a ready group that is not frozen, has a member OPEN and has reached its limit is forced. -/
theorem groupOutcome_force {s : State} {g : Fin 4} (hready : s.groupReady g = true) (hlatch : s.freeze.latch = false)
    (hopen : s.openMembers g ≠ []) (hcount : (s.group g).limit.toNat ≤ (s.group g).count.toNat) :
    s.groupOutcome g = .force := by
  unfold State.groupOutcome
  rw [hready, hlatch]
  have hnonempty : ¬(s.openMembers g).isEmpty = true := fun h => hopen (List.isEmpty_iff.1 h)
  rw [if_neg nofun, if_neg nofun, if_neg hnonempty, if_neg (Nat.not_lt.2 hcount)]

/-- R87: a limit written at or below the count is reached by it. -/
theorem limit_le_count {c : BitVec 4} {v : Word} (h : v.toNat ≤ 15) (hc : v.toNat ≤ c.toNat) :
    (v.setWidth 4).toNat ≤ (if v.toNat < c.toNat then v.setWidth 4 else c).toNat := by
  split
  · exact Nat.le_refl _
  · rw [toNat_setWidth4 h]; exact hc

/-- Settles O20: the write is the branch of its own test, and a limit at or below the count forces the next commit. -/
theorem deflimWriteBoundsTheCount : Obligations.DeflimWriteBoundsTheCount := by
  intro g v s hport hsettled _
  have hexec := exec_deflimWrite hport hsettled g v
  refine ⟨fun h => ⟨hexec.trans (answered (writeDeflim_taken g h)), fun t ht hcount hready hlatch hopen => ?_⟩,
    fun h => hexec.trans (answered (writeDeflim_refused g h))⟩
  have hstate := Host.Outcome.next.inj (ht.symm.trans (hexec.trans (answered (writeDeflim_taken g h))))
  refine groupOutcome_force hready hlatch hopen ?_
  have hgroup : t.group g = { s.group g with
      limit := v.setWidth 4,
      count := if v.toNat < (s.group g).count.toNat then v.setWidth 4 else (s.group g).count } := by
    rw [hstate]
    exact group_setGroup_same s g _
  rw [hgroup]
  exact limit_le_count h hcount

end Sys2Proof.Laws
end

section
/-! The register file as the management port presents it (R9, R168 to R173, R181): the bytes of a transaction, the
register numbers, and the field that stands at each bit position. Settles O14, O15, O16 and O18. -/

namespace Sys2Proof.Laws

open Sys2Proof Sys2Proof.Machine

/-! ## Fields placed in a word -/

/-- R181: a number placed at a bit position, bit by bit. -/
theorem getLsbD_fieldAt (v n i : Nat) :
    (fieldAt v n).getLsbD i = (decide (i < 32) && !decide (i < n) && v.testBit (i - n)) := by
  unfold fieldAt
  rw [BitVec.getLsbD_shiftLeft, BitVec.getLsbD_ofNat]
  by_cases hi : i < 32
  · have hlt : i - n < 32 := by omega
    simp [hi, hlt]
  · simp [hi]

/-- R181: a one-bit field, bit by bit. -/
theorem getLsbD_bitAt (b : Bool) {n : Nat} (hn : n < 32) (i : Nat) : (bitAt b n).getLsbD i = (b && decide (i = n)) := by
  unfold bitAt
  cases b with
  | false => simp
  | true =>
    rw [if_pos rfl, BitVec.getLsbD_shiftLeft]
    by_cases hi : i = n
    · subst hi; simp [hn]
    · by_cases hlt : i < n
      · simp [hlt, hi]
      · have hpos : ¬i - n = 0 := by omega
        simp [hi, hpos, BitVec.getLsbD_one]

/-- The bits at which a number was placed hold it. -/
theorem extract_fieldAt (v : Nat) {n len : Nat} (h : n + len ≤ 32) :
    (fieldAt v n).extractLsb' n len = BitVec.ofNat len v := by
  apply BitVec.eq_of_getLsbD_eq
  intro i hi
  rw [BitVec.getLsbD_extractLsb', getLsbD_fieldAt, BitVec.getLsbD_ofNat]
  simp [hi, show n + i < 32 by omega]

/-- A number placed above some bits leaves them clear. -/
theorem extract_fieldAt_above (v : Nat) {n start len : Nat} (h : start + len ≤ n) :
    (fieldAt v n).extractLsb' start len = 0#len := by
  apply BitVec.eq_of_getLsbD_eq
  intro i hi
  rw [BitVec.getLsbD_extractLsb', getLsbD_fieldAt]
  simp [show start + i < n by omega]

/-- A number placed below some bits leaves them clear, where it fits. -/
theorem extract_fieldAt_below {v k n start len : Nat} (hv : v < 2 ^ k) (h : n + k ≤ start) :
    (fieldAt v n).extractLsb' start len = 0#len := by
  apply BitVec.eq_of_getLsbD_eq
  intro i hi
  have hclear : v.testBit (start + i - n) = false :=
    Nat.testBit_lt_two_pow (Nat.lt_of_lt_of_le hv (Nat.pow_le_pow_right (by decide) (by omega)))
  rw [BitVec.getLsbD_extractLsb', getLsbD_fieldAt, hclear]
  simp

/-- A one-bit field leaves the bits that it is not among clear. -/
theorem extract_bitAt (b : Bool) {n start len : Nat} (hn : n < 32) (h : n < start ∨ start + len ≤ n) :
    (bitAt b n).extractLsb' start len = 0#len := by
  apply BitVec.eq_of_getLsbD_eq
  intro i hi
  rw [BitVec.getLsbD_extractLsb', getLsbD_bitAt b hn]
  simp [show start + i ≠ n by omega]

theorem ofNat_toNat_same {n : Nat} (x : BitVec n) : BitVec.ofNat n x.toNat = x := by simp

/-- A field of a bit vector reads as it. -/
theorem extract_fieldAt_toNat {len n : Nat} (x : BitVec len) (h : n + len ≤ 32) :
    (fieldAt x.toNat n).extractLsb' n len = x := by
  rw [extract_fieldAt _ h, ofNat_toNat_same]

theorem fieldAt_zero {n : Nat} (x : BitVec n) : fieldAt x.toNat 0 = x.setWidth 32 := by
  unfold fieldAt
  rw [BitVec.shiftLeft_zero, BitVec.ofNat_toNat]

/-- The mask of a field. -/
def fieldMask (len n : Nat) : Word := fieldAt (2 ^ len - 1) n

/-- R181: the bits of a word that a field takes. -/
theorem fieldAt_extract (v : Word) {n len : Nat} :
    fieldAt (v.extractLsb' n len).toNat n = v &&& fieldMask len n := by
  apply BitVec.eq_of_getLsbD_eq
  intro i hi
  unfold fieldMask
  rw [BitVec.getLsbD_and, getLsbD_fieldAt, getLsbD_fieldAt, BitVec.testBit_toNat, BitVec.getLsbD_extractLsb',
    Nat.testBit_two_pow_sub_one]
  by_cases hlow : i < n
  · simp [hlow]
  · simp [hlow, hi, show n + (i - n) = i by omega, Bool.and_comm]

theorem bitAt_getLsbD (v : Word) {n : Nat} (h : n < 32) : bitAt (v.getLsbD n) n = v &&& bitAt true n := by
  apply BitVec.eq_of_getLsbD_eq
  intro i _
  rw [BitVec.getLsbD_and, getLsbD_bitAt _ h, getLsbD_bitAt _ h]
  by_cases hi : i = n
  · subst hi; simp
  · simp [hi]

/-! ## Descriptor words (R3, R181) -/

/-- R181: the bits of each descriptor word that a field takes. -/
def descriptorMask (k : Fin 8) : Word :=
  match k with
  | 3 => 0x000003FF#32
  | 4 => 0x03FF01FF#32
  | 5 => 0x00010303#32
  | _ => 0xFFFFFFFF#32

theorem and_ones (v : Word) : v &&& 0xFFFFFFFF#32 = v := BitVec.and_allOnes

/-- R3, R181: a descriptor word written reads as the bits its fields take. -/
theorem word_write_same (d : Descriptor) (k : Fin 8) (v : Word) : (d.write k v).word k = v &&& descriptorMask k := by
  match k with
  | 0 => exact (and_ones v).symm
  | 1 => exact (and_ones v).symm
  | 2 => exact (and_ones v).symm
  | 3 => exact fieldAt_extract v
  | 4 =>
    show fieldAt (v.extractLsb' 0 9).toNat 0 ||| fieldAt (v.extractLsb' 16 10).toNat 16 = _
    rw [fieldAt_extract v, fieldAt_extract v, ← BitVec.and_or_distrib_left]
    rfl
  | 5 =>
    show fieldAt (v.extractLsb' 0 2).toNat 0 ||| fieldAt (v.extractLsb' 8 2).toNat 8 ||| bitAt (v.getLsbD 16) 16 = _
    rw [fieldAt_extract v, fieldAt_extract v, bitAt_getLsbD v (by decide),
      ← BitVec.and_or_distrib_left, ← BitVec.and_or_distrib_left]
    rfl
  | 6 => exact (and_ones v).symm
  | 7 => exact (and_ones v).symm

/-- R3: a write of one descriptor word leaves the others. -/
theorem word_write_other (d : Descriptor) {k j : Fin 8} (v : Word) (h : j ≠ k) : (d.write k v).word j = d.word j := by
  match k, j with
  | 0, 1 | 0, 2 | 0, 3 | 0, 4 | 0, 5 | 0, 6 | 0, 7 => rfl
  | 1, 0 | 1, 2 | 1, 3 | 1, 4 | 1, 5 | 1, 6 | 1, 7 => rfl
  | 2, 0 | 2, 1 | 2, 3 | 2, 4 | 2, 5 | 2, 6 | 2, 7 => rfl
  | 3, 0 | 3, 1 | 3, 2 | 3, 4 | 3, 5 | 3, 6 | 3, 7 => rfl
  | 4, 0 | 4, 1 | 4, 2 | 4, 3 | 4, 5 | 4, 6 | 4, 7 => rfl
  | 5, 0 | 5, 1 | 5, 2 | 5, 3 | 5, 4 | 5, 6 | 5, 7 => rfl
  | 6, 0 | 6, 1 | 6, 2 | 6, 3 | 6, 4 | 6, 5 | 6, 7 => rfl
  | 7, 0 | 7, 1 | 7, 2 | 7, 3 | 7, 4 | 7, 5 | 7, 6 => rfl
  | 0, 0 | 1, 1 | 2, 2 | 3, 3 | 4, 4 | 5, 5 | 6, 6 | 7, 7 => exact absurd rfl h

theorem writeDescriptor_disabled {s : State} {w : Fin 8} (k : Fin 8) (v : Word) (h : (s.window w).enable = .disabled) :
    s.writeDescriptor w k v = (s.setWindow w { s.window w with desc := (s.desc w).write k v }, .ok) := by
  unfold State.writeDescriptor
  rw [h]

theorem writeDescriptor_refused {s : State} {w : Fin 8} (k : Fin 8) (v : Word) (h : (s.window w).enable ≠ .disabled) :
    s.writeDescriptor w k v = (s, .refusedState) := by
  unfold State.writeDescriptor
  split
  next hd => exact absurd hd h
  · rfl
  · rfl

/-- Settles O18: the write is the branch of the enable state, and each word reads as the bits its own fields take. -/
theorem descriptorWriteOnlyWhileDisabled : Obligations.DescriptorWriteOnlyWhileDisabled := by
  intro w k v s hport hsettled
  have hexec := exec_descriptorWrite hport hsettled w k v
  refine ⟨fun h => ⟨(s.desc w).write k v, hexec.trans (answered (writeDescriptor_disabled k v h)), word_write_same _ k v,
    fun j hj => word_write_other _ v hj⟩, fun h => hexec.trans (answered (writeDescriptor_refused k v h))⟩

/-! ## Register numbers (R173, R181) -/

theorem toNat_ofNat16 {n : Nat} (h : n < 65536) : (BitVec.ofNat 16 n).toNat = n := by
  rw [BitVec.toNat_ofNat]; exact Nat.mod_eq_of_lt h

theorem registerNamed_pageView (i : Fin 512) : registerNamed (registerNumber (.pageView i)) = some (.pageView i) := by
  have hnumber : (BitVec.ofNat 16 (0x400 + 4 * i.val)).toNat = 0x400 + 4 * i.val := toNat_ofNat16 (by omega)
  have hindex : Fin.ofNat 512 ((0x400 + 4 * i.val - 0x400) / 4) = i := by
    apply Fin.ext
    rw [ofNat_val_of_lt (by omega)]
    omega
  show registerNamed (BitVec.ofNat 16 (0x400 + 4 * i.val)) = _
  unfold registerNamed
  dsimp only
  rw [hnumber, if_neg (by omega), if_neg (by omega), if_neg (by omega), if_neg (by omega), if_neg (by omega),
    if_pos (by omega), hindex]

/-- R181: each register has its number. -/
theorem registerNamed_registerNumber (r : RegName) : registerNamed (registerNumber r) = some r := by
  cases r with
  | groupControl g => revert g; decide
  | groupStatus g => revert g; decide
  | descriptor w k => revert w k; decide +kernel
  | windowStatus w k => revert w k; decide +kernel
  | pageView i => exact registerNamed_pageView i
  | _ => rfl

theorem fixedRegisters_number : ∀ j : Fin 13, registerNumber (fixedRegisters[j.val]'j.isLt) = BitVec.ofNat 16 (4 * j.val) := by
  decide

/-- R181: the registers of a window stand one word apart. -/
theorem registerNumber_windowRegister : ∀ (w : Fin 8) (j : Fin 16),
    registerNumber (windowRegister w.val j.val) = BitVec.ofNat 16 (0x100 + 64 * w.val + 4 * j.val) := by
  decide

theorem eq_ofNat_of_toNat {n : BitVec 16} {m : Nat} (h : n.toNat = m) : n = BitVec.ofNat 16 m :=
  BitVec.eq_of_toNat_eq (by rw [← h, ofNat_toNat_same])

/-- R173: a number names the register that has it. -/
theorem registerNumber_of_named {n : BitVec 16} {r : RegName} (h : registerNamed n = some r) : registerNumber r = n := by
  unfold registerNamed at h
  dsimp only at h
  split at h
  · cases h
  next hmultiple =>
    split at h
    next hfixed =>
      obtain ⟨hlt, hr⟩ := List.getElem?_eq_some_iff.1 h
      have hj : n.toNat / 4 < 13 := by omega
      rw [← hr]
      refine (fixedRegisters_number ⟨n.toNat / 4, hj⟩).trans (eq_ofNat_of_toNat ?_).symm
      show n.toNat = 4 * (n.toNat / 4)
      omega
    · split at h
      next hrange =>
        obtain rfl := Option.some.inj h
        refine (eq_ofNat_of_toNat ?_).symm
        show n.toNat = 0x40 + 4 * ((n.toNat - 0x40) / 4 % 4)
        omega
      · split at h
        next hrange =>
          obtain rfl := Option.some.inj h
          refine (eq_ofNat_of_toNat ?_).symm
          show n.toNat = 0x50 + 4 * ((n.toNat - 0x50) / 4 % 4)
          omega
        · split at h
          next hrange =>
            obtain rfl := Option.some.inj h
            have hw : (n.toNat - 0x100) / 64 < 8 := by omega
            have hj : (n.toNat - 0x100) / 4 % 16 < 16 := by omega
            refine (registerNumber_windowRegister ⟨_, hw⟩ ⟨_, hj⟩).trans (eq_ofNat_of_toNat ?_).symm
            show n.toNat = 0x100 + 64 * ((n.toNat - 0x100) / 64) + 4 * ((n.toNat - 0x100) / 4 % 16)
            omega
          · split at h
            next hrange =>
              obtain rfl := Option.some.inj h
              refine (eq_ofNat_of_toNat ?_).symm
              show n.toNat = 0x400 + 4 * ((n.toNat - 0x400) / 4 % 512)
              omega
            · cases h

/-- R169, R173: READ_REG from a settled state with the port ready. -/
theorem exec_readReg {s : State} (n : BitVec 16) (hp : s.portReady) (hs : s.Settled) :
    exec (.readReg n) s = .next (s.answer (s.readRegister n)) := by
  show s.event (fun u => u.transact fun t => (t, t.readRegister n)) = _
  rw [event_settled _ hs, transact_ready _ _ hp]

/-- Settles O15: the numbers and the names are inverse, and a read returns what `State.readRegister` gives. -/
theorem readRegReturnsTheValue : Obligations.ReadRegReturnsTheValue := by
  refine ⟨registerNamed_registerNumber, fun n r h => registerNumber_of_named h, fun n r s hport hsettled h => ?_,
    fun n s hport hsettled h => ?_⟩
  · rw [exec_readReg n hport hsettled]
    unfold State.readRegister
    rw [h]
    rfl
  · rw [exec_readReg n hport hsettled]
    unfold State.readRegister
    rw [h]
    rfl

/-! ## The bytes of a transaction (R169) -/

theorem writeCommand_registerNumber (r : RegName) (v : Word) : writeCommand (registerNumber r) v =
    (match r with
      | .devstat => .devstatWrite v
      | .devctl => .devctlWrite v
      | .evmask => .evmaskWrite v
      | .fmode => .fmodeWrite v
      | .fpre => .fpreWrite v
      | .fper => .fperWrite v
      | .fcut => .fcutWrite v
      | .fmin => .fminWrite v
      | .fndiv => .fndivWrite v
      | .groupControl g => .deflimWrite g v
      | .descriptor w k => .descriptorWrite w k v
      | _ => .writeReg (registerNumber r) v) := by
  unfold writeCommand
  rw [registerNamed_registerNumber]
  cases r <;> rfl

theorem writeCommand_noWriteOfItsOwn {n : BitVec 16} (v : Word) (h : noWriteOfItsOwn n = true) :
    writeCommand n v = .writeReg n v := by
  unfold writeCommand
  rcases registerNamed_of_noWriteOfItsOwn h with k | k | k | k | k | ⟨g, k⟩ | ⟨w, j, k⟩ | ⟨p, k⟩ <;> rw [k]

/-- R169: bytes cut short are kept as they came. -/
theorem eq_of_cutShort {bs rs : List Byte} (h : transactionOf bs = .transactionCutShort rs) : rs = bs := by
  unfold transactionOf at h
  split at h
  next => injection h with k; exact k.symm
  next =>
    split at h
    · split at h
      · cases h
      · injection h with k; exact k.symm
    split at h
    · split at h
      · exact absurd h (writeCommand_ne_cutShort _ _ _)
      · injection h with k; exact k.symm
    split at h
    · split at h
      · cases h
      · injection h with k; exact k.symm
    split at h
    · split at h
      · exact absurd h (actionCommand_ne_cutShort _ _ _)
      · injection h with k; exact k.symm
    · cases h

theorem transactionOf_unknownAction {code : Byte} (arg : Byte) (h : actionCodes.contains code = false) :
    actionCommand code arg = .unknownAction code arg := by
  unfold actionCommand
  simp [actionCodes] at h
  simp [h]

theorem transactionOf_badCommand {b : Byte} (h : commandBytes.contains b = false) : transactionOf [b] = .badCommand b := by
  unfold transactionOf
  simp [commandBytes] at h
  simp [h]

theorem transactionOf_readReg (n : BitVec 16) : transactionOf (0x31#8 :: bytesOf16 n) = .readReg n := by
  show Instr.readReg (n.extractLsb' 8 8 ++ n.extractLsb' 0 8) = _
  rw [append_bytesOf16]

/-- Settles O14: the bytes of each command spell it, a write of a register by the register's number. -/
theorem transactionBytesRoundTrip : Obligations.TransactionBytesRoundTrip := by
  intro c bs hwf hbytes
  have hwrite : ∀ {r : RegName} {v : Word}, some (writeBytes (registerNumber r) v) = some bs →
      transactionOf bs = writeCommand (registerNumber r) v := fun h => by
    rw [← Option.some.inj h, transactionOf_writeBytes]
  have hspelt : ∀ {cs : List Byte} {i : Instr}, some cs = some bs → transactionOf cs = i → transactionOf bs = i :=
    fun h hi => Option.some.inj h ▸ hi
  cases c with
  | readReg n => exact hspelt hbytes (transactionOf_readReg n)
  | writeReg n v => exact hspelt hbytes ((transactionOf_writeBytes n v).trans (writeCommand_noWriteOfItsOwn v hwf))
  | descriptorWrite w k v => exact (hwrite hbytes).trans (writeCommand_registerNumber _ v)
  | devstatWrite v => exact (hwrite hbytes).trans (writeCommand_registerNumber _ v)
  | devctlWrite v => exact (hwrite hbytes).trans (writeCommand_registerNumber _ v)
  | evmaskWrite v => exact (hwrite hbytes).trans (writeCommand_registerNumber _ v)
  | fmodeWrite v => exact (hwrite hbytes).trans (writeCommand_registerNumber _ v)
  | fpreWrite v => exact (hwrite hbytes).trans (writeCommand_registerNumber _ v)
  | fperWrite v => exact (hwrite hbytes).trans (writeCommand_registerNumber _ v)
  | fcutWrite v => exact (hwrite hbytes).trans (writeCommand_registerNumber _ v)
  | fminWrite v => exact (hwrite hbytes).trans (writeCommand_registerNumber _ v)
  | fndivWrite v => exact (hwrite hbytes).trans (writeCommand_registerNumber _ v)
  | deflimWrite g v => exact (hwrite hbytes).trans (writeCommand_registerNumber _ v)
  | badCommand b => exact hspelt hbytes (transactionOf_badCommand (by simpa [Instr.wellFormed] using hwf))
  | unknownAction code arg =>
    exact hspelt hbytes (transactionOf_unknownAction arg (by simpa [Instr.wellFormed] using hwf))
  | transactionCutShort received =>
    refine hspelt hbytes ?_
    have hcut : cutShort received = true := hwf
    unfold cutShort at hcut
    split at hcut
    next rs hrs => rw [hrs, eq_of_cutShort hrs]
    · cases hcut
  | popEvent => exact hspelt hbytes rfl
  | enable arg => exact hspelt hbytes rfl
  | disable arg => exact hspelt hbytes rfl
  | disarm arg => exact hspelt hbytes rfl
  | resync arg => exact hspelt hbytes rfl
  | boundary arg => exact hspelt hbytes rfl
  | freeze arg => exact hspelt hbytes rfl
  | release arg => exact hspelt hbytes rfl
  | engineReset arg => exact hspelt hbytes rfl
  | _ => cases hbytes

/-! ## The fields of the status registers (R9, R181) -/

theorem devstat_fields (s : State) (hevents : s.events.length ≤ 32) : let v := s.registerValue .devstat
    v.getLsbD 0 = s.freeze.latch ∧ v.getLsbD 1 = s.freeze.line ∧ v.getLsbD 2 = s.freeze.command ∧
      v.getLsbD 3 = s.freeze.level ∧
      v.extractLsb' 4 2 = (match s.timer.sync with | .seeking => 0#2 | .locked => 1#2 | .lost => 2#2) ∧
      v.getLsbD 8 = s.overrun ∧ (v.extractLsb' 16 6).toNat = s.events.length := by
  have hsync : s.timer.sync.code < 2 ^ 2 := by cases s.timer.sync <;> decide
  have hlow : ∀ i, i < 4 → (fieldAt s.timer.sync.code 4).getLsbD i = false := fun i hi => by
    rw [getLsbD_fieldAt]; simp [hi]
  have hhigh : (fieldAt s.timer.sync.code 4).getLsbD 8 = false := by
    rw [getLsbD_fieldAt, Nat.testBit_lt_two_pow (Nat.lt_trans hsync (by decide))]; rfl
  have hqueue : ∀ i, i < 16 → (fieldAt s.events.length 16).getLsbD i = false := fun i hi => by
    rw [getLsbD_fieldAt]; simp [hi]
  have hbit : ∀ i, (s.registerValue .devstat).getLsbD i = ((s.freeze.latch && decide (i = 0)) ||
      (s.freeze.line && decide (i = 1)) || (s.freeze.command && decide (i = 2)) || (s.freeze.level && decide (i = 3)) ||
      (fieldAt s.timer.sync.code 4).getLsbD i || (s.overrun && decide (i = 8)) ||
      (fieldAt s.events.length 16).getLsbD i) := fun i => by
    dsimp only [State.registerValue, State.devstatWord]
    simp only [BitVec.getLsbD_or]
    rw [getLsbD_bitAt _ (by decide), getLsbD_bitAt _ (by decide), getLsbD_bitAt _ (by decide),
      getLsbD_bitAt _ (by decide), getLsbD_bitAt _ (by decide)]
  refine ⟨?_, ?_, ?_, ?_, ?_, ?_, ?_⟩
  · rw [hbit, hlow 0 (by decide), hqueue 0 (by decide)]; simp
  · rw [hbit, hlow 1 (by decide), hqueue 1 (by decide)]; simp
  · rw [hbit, hlow 2 (by decide), hqueue 2 (by decide)]; simp
  · rw [hbit, hlow 3 (by decide), hqueue 3 (by decide)]; simp
  · dsimp only [State.registerValue, State.devstatWord]
    simp only [BitVec.extractLsb'_or]
    rw [extract_bitAt _ (by decide) (by decide), extract_bitAt _ (by decide) (by decide),
      extract_bitAt _ (by decide) (by decide), extract_bitAt _ (by decide) (by decide), extract_fieldAt _ (by decide),
      extract_bitAt _ (by decide) (by decide), extract_fieldAt_above _ (by decide)]
    cases s.timer.sync <;> rfl
  · rw [hbit, hhigh, hqueue 8 (by decide)]; simp
  · dsimp only [State.registerValue, State.devstatWord]
    simp only [BitVec.extractLsb'_or]
    rw [extract_bitAt _ (by decide) (by decide), extract_bitAt _ (by decide) (by decide),
      extract_bitAt _ (by decide) (by decide), extract_bitAt _ (by decide) (by decide),
      extract_fieldAt_below hsync (by decide), extract_bitAt _ (by decide) (by decide), extract_fieldAt _ (by decide)]
    simp only [BitVec.zero_or, BitVec.toNat_ofNat]
    exact Nat.mod_eq_of_lt (by omega)

theorem devqueue_fields (s : State) (hqueue : s.copyQueue.length ≤ 512) : let v := s.registerValue .devqueue
    (v.extractLsb' 0 10).toNat = s.copyQueue.length ∧ v.getLsbD 15 = s.engine.page.isSome ∧
      (∀ p, s.engine.page = some p → (v.extractLsb' 16 9).toNat = p.val) ∧
      (s.engine.page = none → v.extractLsb' 16 9 = 0#9) := by
  have hlength : s.copyQueue.length < 2 ^ 10 := by omega
  have hpage : (s.registerValue .devqueue).extractLsb' 16 9 =
      BitVec.ofNat 9 ((s.engine.page.map (·.val)).getD 0) := by
    show (_ ||| _ ||| _ : Word).extractLsb' 16 9 = _
    simp only [BitVec.extractLsb'_or]
    rw [extract_fieldAt_below hlength (by decide), extract_bitAt _ (by decide) (by decide), extract_fieldAt _ (by decide)]
    simp
  refine ⟨?_, ?_, fun p hp => ?_, fun hnone => ?_⟩
  · show ((_ ||| _ ||| _ : Word).extractLsb' 0 10).toNat = _
    simp only [BitVec.extractLsb'_or]
    rw [extract_fieldAt _ (by decide), extract_bitAt _ (by decide) (by decide), extract_fieldAt_above _ (by decide)]
    simp only [BitVec.or_zero, BitVec.toNat_ofNat]
    exact Nat.mod_eq_of_lt hlength
  · show (_ ||| _ ||| _ : Word).getLsbD 15 = _
    rw [BitVec.getLsbD_or, BitVec.getLsbD_or, getLsbD_fieldAt, getLsbD_bitAt _ (by decide), getLsbD_fieldAt,
      Nat.testBit_lt_two_pow (Nat.lt_trans hlength (by decide))]
    simp
  · rw [hpage, hp, BitVec.toNat_ofNat]
    exact Nat.mod_eq_of_lt p.isLt
  · rw [hpage, hnone]; rfl

theorem devctl_fields (s : State) : let v := s.registerValue .devctl
    v.getLsbD 0 = s.irqEnable ∧ v.extractLsb' 8 3 = s.holdMax := by
  refine ⟨?_, ?_⟩ <;> dsimp only [State.registerValue, State.devctlWord]
  · rw [BitVec.getLsbD_or, getLsbD_bitAt _ (by decide), getLsbD_fieldAt]
    simp
  · rw [BitVec.extractLsb'_or, extract_bitAt _ (by decide) (by decide), extract_fieldAt_toNat _ (by decide)]
    exact BitVec.zero_or

theorem fmode_fields (s : State) : let v := s.registerValue .fmode
    v.extractLsb' 0 2 = (match s.timer.mode with | .off => 0#2 | .internal => 1#2 | .external => 2#2) ∧
      v.getLsbD 4 = s.timer.pendFper.isSome ∧ v.getLsbD 5 = s.timer.pendFcut.isSome := by
  have hmode : s.timer.mode.code < 2 ^ 2 := by cases s.timer.mode <;> decide
  refine ⟨?_, ?_, ?_⟩ <;> dsimp only [State.registerValue, State.fmodeWord]
  · simp only [BitVec.extractLsb'_or]
    rw [extract_fieldAt _ (by decide), extract_bitAt _ (by decide) (by decide), extract_bitAt _ (by decide) (by decide)]
    cases s.timer.mode <;> rfl
  · rw [BitVec.getLsbD_or, BitVec.getLsbD_or, getLsbD_fieldAt, getLsbD_bitAt _ (by decide), getLsbD_bitAt _ (by decide),
      Nat.testBit_lt_two_pow (Nat.lt_trans hmode (by decide))]
    simp
  · rw [BitVec.getLsbD_or, BitVec.getLsbD_or, getLsbD_fieldAt, getLsbD_bitAt _ (by decide), getLsbD_bitAt _ (by decide),
      Nat.testBit_lt_two_pow (Nat.lt_trans hmode (by decide))]
    simp

theorem group_fields (s : State) (g : Fin 4) : s.registerValue (.groupControl g) = (s.group g).limit.setWidth 32 ∧
    let v := s.registerValue (.groupStatus g)
    v.getLsbD 0 = ((s.group g).state == .deferred) ∧ v.extractLsb' 8 4 = (s.group g).count := by
  refine ⟨fieldAt_zero _, ?_, ?_⟩ <;> dsimp only [State.registerValue, Group.statusWord]
  · rw [BitVec.getLsbD_or, getLsbD_bitAt _ (by decide), getLsbD_fieldAt]
    simp
  · rw [BitVec.extractLsb'_or, extract_bitAt _ (by decide) (by decide), extract_fieldAt_toNat _ (by decide)]
    exact BitVec.zero_or

theorem descriptor_fields (s : State) (w : Fin 8) : let d := s.desc w
    let r (k : Fin 8) := s.registerValue (.descriptor w k)
    r 0 = d.viewBase ∧ r 1 = d.bankABase ∧ r 2 = d.bankBBase ∧ (r 3).extractLsb' 0 10 = d.pageSize ∧
      (r 4).extractLsb' 0 9 = d.pageFirst ∧ (r 4).extractLsb' 16 10 = d.pageCount ∧ (r 5).extractLsb' 0 2 = d.group ∧
      (r 5).extractLsb' 8 2 = d.policy ∧ (r 5).getLsbD 16 = d.guard ∧ r 6 = d.cma ∧ r 7 = d.lma := by
  refine ⟨rfl, rfl, rfl, extract_fieldAt_toNat _ (by decide), ?_, ?_, ?_, ?_, ?_, rfl, rfl⟩ <;>
    dsimp only [State.registerValue, Descriptor.word]
  · rw [BitVec.extractLsb'_or, extract_fieldAt_toNat _ (by decide), extract_fieldAt_above _ (by decide)]
    exact BitVec.or_zero
  · rw [BitVec.extractLsb'_or, extract_fieldAt_below (BitVec.isLt _) (by decide), extract_fieldAt_toNat _ (by decide)]
    exact BitVec.zero_or
  · rw [BitVec.extractLsb'_or, BitVec.extractLsb'_or, extract_fieldAt_toNat _ (by decide),
      extract_fieldAt_above _ (by decide), extract_bitAt _ (by decide) (by decide)]
    simp
  · rw [BitVec.extractLsb'_or, BitVec.extractLsb'_or, extract_fieldAt_below (BitVec.isLt _) (by decide),
      extract_fieldAt_toNat _ (by decide), extract_bitAt _ (by decide) (by decide)]
    simp
  · rw [BitVec.getLsbD_or, BitVec.getLsbD_or, getLsbD_fieldAt, getLsbD_fieldAt, getLsbD_bitAt _ (by decide),
      BitVec.testBit_toNat, BitVec.testBit_toNat, BitVec.getLsbD_of_ge _ _ (by decide), BitVec.getLsbD_of_ge _ _ (by decide)]
    simp

theorem pageView_fields (s : State) (p : Fin 512) : let v := s.registerValue (.pageView p)
    v.extractLsb' 0 3 = (match (s.page p).state with
      | .unused => 0#3 | .synced => 1#3 | .dirty => 2#3 | .stale => 3#3 | .copying => 4#3 | .broken => 5#3) ∧
      v.getLsbD 4 = ((s.page p).bank == .b) ∧ v.extractLsb' 8 2 = (s.page p).attempts := by
  have hstate : (s.page p).state.code < 2 ^ 3 := by cases (s.page p).state <;> decide
  refine ⟨?_, ?_, ?_⟩ <;> dsimp only [State.registerValue, PageEntry.word]
  · rw [BitVec.extractLsb'_or, BitVec.extractLsb'_or, extract_fieldAt _ (by decide), extract_bitAt _ (by decide) (by decide),
      extract_fieldAt_above _ (by decide)]
    cases (s.page p).state <;> rfl
  · rw [BitVec.getLsbD_or, BitVec.getLsbD_or, getLsbD_fieldAt, getLsbD_bitAt _ (by decide), getLsbD_fieldAt,
      Nat.testBit_lt_two_pow (Nat.lt_trans hstate (by decide))]
    simp
  · rw [BitVec.extractLsb'_or, BitVec.extractLsb'_or, extract_fieldAt_below hstate (by decide),
      extract_bitAt _ (by decide) (by decide), extract_fieldAt_toNat _ (by decide)]
    simp

/-- R9: the count of pages of a window in a state. -/
theorem pageCount_eq {s : State} {w : Fin 8} (husable : s.inService w → (s.desc w).usable = true) (st : PageState) :
    s.pageCount w st = if (s.window w).enable = .disabled then 0 else (s.runPages w st).length := by
  unfold State.pageCount
  split
  · rfl
  next hservice => rw [pagesIn_eq_runPages (runOk_of_usable (husable hservice))]

theorem pageCount_lt {s : State} {w : Fin 8} (husable : s.inService w → (s.desc w).usable = true) (st : PageState) :
    s.pageCount w st < 2 ^ 10 := by
  rw [pageCount_eq husable]
  split
  · decide
  · have hle : (s.runPages w st).length ≤ 512 :=
      Nat.le_trans (List.length_filter_le _ _) (Nat.le_of_eq (List.length_finRange))
    omega

/-- R181: the two counts of a status word. -/
theorem counts_fields {m n : Nat} (hm : m < 2 ^ 10) (hn : n < 2 ^ 10) :
    ((fieldAt m 0 ||| fieldAt n 16).extractLsb' 0 10).toNat = m ∧
      ((fieldAt m 0 ||| fieldAt n 16).extractLsb' 16 10).toNat = n := by
  constructor
  · rw [BitVec.extractLsb'_or, extract_fieldAt _ (by decide), extract_fieldAt_above _ (by decide), BitVec.or_zero,
      BitVec.toNat_ofNat]
    exact Nat.mod_eq_of_lt hm
  · rw [BitVec.extractLsb'_or, extract_fieldAt_below hm (by decide), extract_fieldAt _ (by decide), BitVec.zero_or,
      BitVec.toNat_ofNat]
    exact Nat.mod_eq_of_lt hn

/-- R181: the first status word of a window. -/
theorem windowStatus_fields (s : State) (w : Fin 8) : let x := s.window w
    let v := s.registerValue (.windowStatus w 0)
    v.extractLsb' 0 2 = (match x.enable with | .disabled => 0#2 | .enabled => 1#2 | .draining => 2#2) ∧
      v.extractLsb' 4 2 = (match x.commit with | .isOpen => 0#2 | .armedLate => 1#2 | .armed => 2#2) ∧
      v.extractLsb' 8 2 = (match x.bracket with | .closed => 0#2 | .isOpen => 1#2 | .revoked => 2#2) ∧
      v.getLsbD 12 = x.readyPending := by
  have henable : (s.window w).enable.code < 2 ^ 2 := by cases (s.window w).enable <;> decide
  have hcommit : (s.window w).commit.code < 2 ^ 2 := by cases (s.window w).commit <;> decide
  have hbracket : (s.window w).bracket.code < 2 ^ 2 := by cases (s.window w).bracket <;> decide
  refine ⟨?_, ?_, ?_, ?_⟩ <;> dsimp only [State.registerValue, State.windowWord]
  · simp only [BitVec.extractLsb'_or]
    rw [extract_fieldAt _ (by decide), extract_fieldAt_above _ (by decide), extract_fieldAt_above _ (by decide),
      extract_bitAt _ (by decide) (by decide)]
    cases (s.window w).enable <;> rfl
  · simp only [BitVec.extractLsb'_or]
    rw [extract_fieldAt_below henable (by decide), extract_fieldAt _ (by decide), extract_fieldAt_above _ (by decide),
      extract_bitAt _ (by decide) (by decide)]
    cases (s.window w).commit <;> rfl
  · simp only [BitVec.extractLsb'_or]
    rw [extract_fieldAt_below henable (by decide), extract_fieldAt_below hcommit (by decide), extract_fieldAt _ (by decide),
      extract_bitAt _ (by decide) (by decide)]
    cases (s.window w).bracket <;> rfl
  · simp only [BitVec.getLsbD_or]
    rw [getLsbD_fieldAt, getLsbD_fieldAt, getLsbD_fieldAt, getLsbD_bitAt _ (by decide),
      Nat.testBit_lt_two_pow (Nat.lt_trans henable (by decide)), Nat.testBit_lt_two_pow (Nat.lt_trans hcommit (by decide)),
      Nat.testBit_lt_two_pow (Nat.lt_trans hbracket (by decide))]
    simp

/-- Settles O16: each field is read off the word it was placed in, the others leaving its bits clear. -/
theorem statusRegisterFields : Obligations.StatusRegisterFields := by
  intro s hevents hqueue husable
  refine ⟨devstat_fields s hevents, devqueue_fields s hqueue, ⟨rfl, rfl⟩, devctl_fields s, fmode_fields s,
    ⟨fieldAt_zero _, fieldAt_zero _, fieldAt_zero _, fieldAt_zero _, fieldAt_zero _, fieldAt_zero _, fieldAt_zero _⟩,
    group_fields s, descriptor_fields s, fun w => ?_, pageView_fields s⟩
  obtain ⟨henable, hcommit, hbracket, hready⟩ := windowStatus_fields s w
  have hlt : ∀ st, s.pageCount w st < 2 ^ 10 := pageCount_lt (husable w)
  have hcounts : ∀ a b, ((fieldAt (s.pageCount w a) 0 ||| fieldAt (s.pageCount w b) 16).extractLsb' 0 10).toNat =
        (if (s.window w).enable = .disabled then 0 else (s.runPages w a).length) ∧
      ((fieldAt (s.pageCount w a) 0 ||| fieldAt (s.pageCount w b) 16).extractLsb' 16 10).toNat =
        (if (s.window w).enable = .disabled then 0 else (s.runPages w b).length) := fun a b => by
    rw [← pageCount_eq (husable w), ← pageCount_eq (husable w)]
    exact counts_fields (hlt a) (hlt b)
  refine ⟨henable, hcommit, hbracket, hready, rfl, extract_fieldAt_toNat _ (by decide), rfl,
    extract_fieldAt_toNat _ (by decide), (hcounts .synced .dirty).1, (hcounts .synced .dirty).2, (hcounts .stale .copying).1,
    (hcounts .stale .copying).2, ?_⟩
  show ((fieldAt (s.pageCount w .broken) 0).extractLsb' 0 10).toNat = _
  rw [extract_fieldAt _ (by decide), BitVec.toNat_ofNat, Nat.mod_eq_of_lt (hlt .broken), pageCount_eq (husable w)]

end Sys2Proof.Laws
end

section
/-! The step and the Frame Timer (R66 to R81): what one BCLK period does, tick by tick and filter by filter, and the
order-free form of a period's events. Settles O1, O3, O5, O6 and O7. -/

namespace Sys2Proof.Laws

open Sys2Proof Sys2Proof.Machine

/-! ## The step -/

/-- Settles O1: the branch of `step` on a queue with a command in front. -/
theorem stepRunsFrontCommand : Obligations.StepRunsFrontCommand := fun _ _ _ => rfl

theorem step_of_empty_due {s : State} (h : s.pending = []) (hdue : s.decision ≠ none) : step s = .next s.arbitrated := by
  unfold step
  rw [h]
  cases hd : s.decision with
  | none => exact absurd hd hdue
  | some q => rfl

theorem step_of_empty_idle {s : State} (h : s.pending = []) (hidle : s.decision = none) : step s = .next s.bclk := by
  unfold step
  rw [h, hidle]

/-- R136: where no grant is due, a period begins with the mark of an open decision cleared. -/
theorem settled_of_idle {s : State} (h : s.decision = none) : s.settled = { s with freed := false } := by
  unfold State.settled
  rw [h]

theorem settled_self {s : State} (h : s.decision = none) (hf : s.freed = false) : s.settled = s :=
  settled_of_settled (by show s.freed = s.decision.isSome; rw [h, hf]; rfl)

/-! ## The board's levels -/

theorem drive_nil {s : State} (h : s.board = []) : s.drive = s := by
  unfold State.drive
  rw [h]

theorem drive_cons {s : State} {l : BoardLevels} {rest : List BoardLevels} (h : s.board = l :: rest) :
    s.drive = ({ s with
      board := rest, fsync := { s.fsync with pin := l.fsync }, frz := { s.frz with pin := l.frz } }).samplePort l := by
  unfold State.drive
  rw [h]

theorem samplePort_fsync (s : State) (l : BoardLevels) : (s.samplePort l).fsync = s.fsync := by rw [samplePort_eq]

theorem samplePort_frz (s : State) (l : BoardLevels) : (s.samplePort l).frz = s.frz := by rw [samplePort_eq]

/-- The pins take the board's levels, whatever the serial lines do with theirs. -/
theorem drive_filters {s t : State} (hboard : t.board = s.board) (hfsync : t.fsync = s.fsync) (hfrz : t.frz = s.frz) :
    t.drive.fsync = s.drive.fsync ∧ t.drive.frz = s.drive.frz := by
  cases hb : s.board with
  | nil => rw [drive_nil hb, drive_nil (hboard.trans hb)]; exact ⟨hfsync, hfrz⟩
  | cons l rest =>
    rw [drive_cons hb, drive_cons (hboard.trans hb), samplePort_fsync, samplePort_frz, samplePort_fsync, samplePort_frz,
      hfsync, hfrz]
    exact ⟨rfl, rfl⟩

/-! ## One BCLK period -/

/-- The state in which the events of a period are taken: the strobe has run and the filters have sampled. -/
def begun (d : State) : State :=
  { d with timer := { d.timer with strobe := d.timer.strobe - 1 }, fsync := d.fsync.sample, frz := d.frz.sample }

theorem period_quiet {d : State} (hfsync : d.fsync.due = false) (hfrz : d.frz.due = false) :
    d.period = (begun d).prescale := by
  unfold State.period
  rw [hfsync, hfrz]
  rfl

theorem prescale_off {s : State} (h : s.timer.mode = .off) : s.prescale = s := by
  unfold State.prescale
  rw [h]

theorem prescale_count {s : State} (h : s.timer.mode ≠ .off) (hlt : s.timer.prescale + 1 < s.timer.fpre.toNat) :
    s.prescale = { s with timer := { s.timer with prescale := s.timer.prescale + 1 } } := by
  unfold State.prescale
  split
  next hoff => exact absurd hoff h
  · exact if_neg (Nat.not_le.2 hlt)
  · exact if_neg (Nat.not_le.2 hlt)

theorem prescale_tick {s : State} (h : s.timer.mode ≠ .off) (hle : s.timer.fpre.toNat ≤ s.timer.prescale + 1) :
    s.prescale = s.tickOnce := by
  unfold State.prescale
  split
  next hoff => exact absurd hoff h
  · exact if_pos hle
  · exact if_pos hle

theorem exec_tick_of_idle {s : State} (h : s.decision = none) (hf : s.freed = false) :
    exec .tick s = .next s.tickOnce := by
  show s.event State.tickOnce = _
  unfold State.event
  rw [settled_self h hf]

theorem bclk_of_idle {s : State} (h : s.decision = none) :
    s.bclk = ({ s with freed := false } : State).drive.period := by
  unfold State.bclk
  rw [settled_of_idle h]

/-- What the state in which a period's events are taken keeps of the state before the period. -/
theorem begun_kept (s : State) (hidle : s.decision = none) : let d := ({ s with freed := false } : State).drive
    (begun d).decision = none ∧ (begun d).freed = false ∧ (begun d).freeze = s.freeze ∧
      d.fsync = s.drive.fsync ∧ d.frz = s.drive.frz := by
  obtain ⟨hfsync, hfrz⟩ := drive_filters (s := s) (t := { s with freed := false }) rfl rfl rfl
  exact ⟨(drive_decision { s with freed := false }).trans hidle, drive_freed _, drive_freeze _, hfsync, hfrz⟩

/-- The prescaler's own figures at the events of a period. -/
theorem begun_prescaler (s : State) : let t := begun ({ s with freed := false } : State).drive
    t.timer.mode = s.timer.mode ∧ t.timer.prescale = s.timer.prescale ∧ t.timer.fpre = s.timer.fpre := by
  dsimp only [begun]
  rw [drive_timer]
  exact ⟨rfl, rfl, rfl⟩

/-- Settles O3: the branches of `step`, of the board's levels and of the prescaler. -/
theorem idleStepIsOneBclkPeriod : Obligations.IdleStepIsOneBclkPeriod := by
  refine ⟨fun s h hdue => step_of_empty_due h hdue, fun s h => drive_nil h, fun s l rest h => drive_cons h,
    fun s hpending hidle hfsync hfrz => ?_⟩
  obtain ⟨hdecision, hfreed, -, hdfsync, hdfrz⟩ := begun_kept s hidle
  obtain ⟨hmode, hprescale, hfpre⟩ := begun_prescaler s
  have hstep : step s = .next (begun ({ s with freed := false } : State).drive).prescale := by
    rw [step_of_empty_idle hpending hidle, bclk_of_idle hidle, period_quiet (hdfsync ▸ hfsync) (hdfrz ▸ hfrz)]
  refine ⟨fun hoff => ?_, fun hrunning hcount => ?_, fun hrunning htick => ?_⟩
  · rw [hstep, prescale_off (hmode.trans hoff)]; rfl
  · rw [hstep, prescale_count (by rw [hmode]; exact hrunning) (by rw [hprescale, hfpre]; exact hcount), hprescale]; rfl
  · rw [hstep, prescale_tick (by rw [hmode]; exact hrunning) (by rw [hprescale, hfpre]; exact htick)]
    exact (exec_tick_of_idle hdecision hfreed).symm

/-! ## Ticks (R67, R73, R75) -/

theorem periodDue_iff (t : Timer) : t.periodDue = true ↔ t.fper.toNat ≤ t.counter.toNat + 1 := decide_eq_true_iff

theorem tickOnce_off {s : State} (h : s.timer.mode = .off) : s.tickOnce = s := by
  unfold State.tickOnce
  rw [h]

theorem tickOnce_advance {s : State} (h : s.timer.mode ≠ .off) (hlt : s.timer.counter.toNat + 1 < s.timer.fper.toNat) :
    s.tickOnce = { s with timer := { s.timer with counter := s.timer.counter + 1#24, prescale := 0 } } := by
  have hnot : ¬s.timer.periodDue = true := fun hdue => absurd ((periodDue_iff s.timer).1 hdue) (Nat.not_le.2 hlt)
  unfold State.tickOnce
  split
  next hoff => exact absurd hoff h
  · exact if_neg hnot
  · exact if_neg hnot

theorem tickOnce_internal {s : State} (h : s.timer.mode = .internal) (hdue : s.timer.periodDue = true) :
    s.tickOnce = s.plainBoundary := by
  unfold State.tickOnce
  rw [h]
  exact if_pos hdue

theorem tickOnce_external {s : State} (h : s.timer.mode = .external) (hdue : s.timer.periodDue = true) :
    s.tickOnce = s.synthesized := by
  unfold State.tickOnce
  rw [h]
  exact if_pos hdue

theorem internalEnd_due {s : State} (h : s.timer.mode = .internal) (hdue : s.timer.periodDue = true) :
    s.internalEnd = s.plainBoundary := by
  unfold State.internalEnd
  rw [h]
  exact if_pos hdue

theorem externalEnd_due {s : State} (h : s.timer.mode = .external) (hdue : s.timer.periodDue = true) :
    s.externalEnd = s.synthesized := by
  unfold State.externalEnd
  rw [h]
  exact if_pos hdue

theorem synthesized_of_sync {s : State} : s.synthesized =
    (match s.timer.sync with
      | .seeking => s.boundaryWith .seeking none
      | .locked => s.boundaryWith .lost (some .syncLost)
      | .lost => s.boundaryWith .lost none) := rfl

/-- Settles O5: the branches of `State.tickOnce` by the mode and the counter, beside those of the two ends of a period. -/
theorem tickAdvancesOrEndsThePeriod : Obligations.TickAdvancesOrEndsThePeriod := by
  intro s hs
  have htick : exec .tick s = .next s.tickOnce := event_settled State.tickOnce hs
  have hinternal : exec .periodEnd s = .next s.internalEnd := event_settled State.internalEnd hs
  have hexternal : exec .synthesizedBoundary s = .next s.externalEnd := event_settled State.externalEnd hs
  refine ⟨fun h => ?_, fun h hlt => ?_, fun h hdue => ?_, fun h hdue => ?_⟩
  · rw [htick, tickOnce_off h]
  · rw [htick, tickOnce_advance h hlt]
  · have hd := (periodDue_iff s.timer).2 hdue
    rw [htick, hinternal, internalEnd_due h hd, tickOnce_internal h hd]
    exact ⟨rfl, rfl⟩
  · have hd := (periodDue_iff s.timer).2 hdue
    rw [htick, hexternal, externalEnd_due h hd, tickOnce_external h hd, synthesized_of_sync]
    exact ⟨rfl, fun hsync => by rw [hsync], fun hsync => by rw [hsync], fun hsync => by rw [hsync]⟩

/-! ## FSYNC (R74, R75, R77) -/

theorem timerEdge_quiet {s : State} (h : s.timer.mode ≠ .external) : s.timerEdge = s := by
  unfold State.timerEdge
  split
  · rfl
  · rfl
  next he => exact absurd he h

theorem timerEdge_early {s : State} (h : s.timer.mode = .external) (hlt : s.timer.counter.toNat < s.timer.fmin.toNat) :
    s.timerEdge = s.record { kind := .syncEarly, phase := s.timer.counter } := by
  unfold State.timerEdge
  rw [h]
  exact if_pos hlt

theorem timerEdge_boundary {s : State} (h : s.timer.mode = .external) (hle : s.timer.fmin.toNat ≤ s.timer.counter.toNat) :
    s.timerEdge = (match s.timer.sync with
      | .seeking => s.boundaryWith .locked (some .syncLocked)
      | .locked => s.boundaryWith .locked none
      | .lost => s.boundaryWith .locked (some .syncLocked)) := by
  unfold State.timerEdge
  rw [h]
  exact if_neg (Nat.not_lt.2 hle)

/-- R77: the filter of FSYNC has accepted it high. -/
def fsyncHigh (s : State) : State := { s with fsync := { pin := true, accepted := true, run := 0 } }

theorem acceptFsync_rise {s : State} (h : s.fsync.accepted = false) : s.acceptFsync true = (fsyncHigh s).timerEdge := by
  unfold State.acceptFsync
  rw [h]
  rfl

/-- Settles O6: the branches of `State.timerEdge` by the mode, FMIN and the sync state. -/
theorem fsyncEdgeByModeAndCounter : Obligations.FsyncEdgeByModeAndCounter := by
  refine ⟨fun s hs haccepted => ?_, fun s hs haccepted => event_settled (fun t => t.acceptFsync false) hs⟩
  have hexec : exec .fsyncEdge s = .next (s.acceptFsync true) := event_settled (fun t => t.acceptFsync true) hs
  rw [hexec, acceptFsync_rise haccepted]
  refine ⟨fun h => ?_, fun h hlt => ?_, fun h hle => ?_⟩
  · rw [timerEdge_quiet (s := fsyncHigh s) h]; rfl
  · rw [timerEdge_early (s := fsyncHigh s) h hlt]; rfl
  · rw [timerEdge_boundary (s := fsyncHigh s) h hle, show (fsyncHigh s).timer.sync = s.timer.sync from rfl]
    exact ⟨fun hsync => by rw [hsync]; rfl, fun hsync => by rw [hsync]; rfl, fun hsync => by rw [hsync]; rfl⟩

/-! ## Boundaries (R69, R78 to R81) -/

theorem frameDue_iff (t : Timer) : t.frameDue = true ↔ t.frame.toNat % t.fndiv.toNat = 0 := beq_iff_eq

theorem recordFrame_eq (s : State) :
    s.recordFrame = if s.timer.frame.toNat % s.timer.fndiv.toNat = 0 then s.record { kind := .frame } else s := by
  unfold State.recordFrame
  exact if_congr (frameDue_iff s.timer) rfl rfl

theorem recordFrame_timer (s : State) : s.recordFrame.timer = s.timer := by
  unfold State.recordFrame
  split
  · exact record_timer _ _
  · rfl

theorem boundaryWith_timer (s : State) (sync : SyncState) (mark : Option EventKind) :
    (s.boundaryWith sync mark).timer = s.timer.begin sync := by
  unfold State.boundaryWith
  cases mark with
  | none => exact (deliver_timer _).trans (recordFrame_timer _)
  | some k => exact ((deliver_timer _).trans (recordFrame_timer _)).trans (record_timer _ _)

/-- Settles O7: a boundary is its timer's part, its records and its delivery, in that order. -/
theorem boundaryAtTheFrameTimer : Obligations.BoundaryAtTheFrameTimer := by
  refine ⟨fun s sync mark => ⟨?_, boundaryWith_timer s sync mark, ?_⟩, fun s arg hport hs => ?_, fun s hs => ?_⟩
  · unfold State.boundaryWith
    cases mark with
    | none => exact congrArg State.deliver (recordFrame_eq _)
    | some k =>
      refine congrArg State.deliver ((recordFrame_eq _).trans ?_)
      rw [record_timer]
      rfl
  · unfold State.fstb
    rw [boundaryWith_timer]
    rfl
  · show s.event (fun t => t.transactStatus State.boundaryAction) = _
    rw [event_answered _ hport hs]
    rfl
  · exact ⟨_, event_settled (fun t => t.setTimer { t.timer with strobe := 0 }) hs, rfl, rfl⟩

end Sys2Proof.Laws
end

section
/-! The commands and levels to come, and the arbiter's memory of its grants: what a command's own pieces leave alone.
Settles O2 and O34. -/

namespace Sys2Proof.Laws

open Sys2Proof Sys2Proof.Machine

/-! ## A command's own pieces -/

/-- A command's own pieces take nothing from the queues and make no grant. -/
theorem scheduleSame_change {s t : State} (c : Change false s t) : ScheduleSame s t := by
  cases c with
  | grant _ _ hw => cases hw
  | inputs _ _ hw => cases hw
  | engineReset hw => cases hw
  | hardReset hw => cases hw
  | record e => exact (outsideSame_record s e).toScheduleSame
  | judge x a => exact (outsideSame_of_portsOnly (portsOnly_judgeAccess s x a)).toScheduleSame
  | misformed x a => exact (outsideSame_of_portsOnly (portsOnly_setPort s x _)).toScheduleSame
  | timeOut a => exact (outsideSame_of_portsOnly (portsOnly_setPort _ .p _)).written.toScheduleSame
  | response q m r d => exact (outsideSame_response s q r d).toScheduleSame
  | deliver => exact (outsideSame_deliver s).toScheduleSame
  | enable => exact (outsideSame_rejudge _).written.toScheduleSame
  | drain => exact (outsideSame_rejudge _).written.toScheduleSame
  | disable => exact ((outsideSame_record _ _).trans (outsideSame_rejudge _)).written.toScheduleSame
  | resync => exact (outsideSame_rejudge _).written.toScheduleSame
  | disarm w => exact ((outsideSame_disarmed s w).trans (outsideSame_rejudge _)).toScheduleSame
  | _ => exact ⟨rfl, rfl, rfl, rfl⟩

theorem scheduleSame_chain {s t : State} (h : Chain false s t) : ScheduleSame s t := by
  induction h with
  | refl => exact ScheduleSame.refl s
  | tail _ hchange ih => exact ih.trans (scheduleSame_change hchange)

/-- An ordinary command makes no grant after the one that settles the state. -/
theorem scheduleSame_ordinary {c : Instr} {s t : State} (hc : ordinary c = true) (h : exec c s = .next t) :
    ScheduleSame s.settled t := scheduleSame_chain (chain_of_ordinary hc h)

theorem scheduleSame_response (s : State) (r : BusResp) (d : List Word) : ScheduleSame s (s.response r d) :=
  scheduleSame_chain (chain_response s r d)

/-- R136: the grant that settles the state moves what a grant moves. -/
theorem grantFrame_settled (s : State) : GrantFrame s s.settled := by
  unfold State.settled
  split
  · exact ⟨rfl, rfl, rfl, rfl, rfl, rfl, rfl, rfl, rfl, rfl⟩
  · split
    · exact GrantFrame.refl s
    · exact grantFrame_arbitrated s

/-! ## O2 -/

/-- No command faults or is refused. -/
theorem exec_next (c : Instr) (s : State) : ∃ t, exec c s = .next t := by cases c <;> exact ⟨_, rfl⟩

theorem engineReset_queues (s : State) : s.engineReset.board = s.board ∧ s.engineReset.pending = s.pending := by
  have hdrop := outsideSame_dropHeld s
  unfold State.engineReset
  simp only [rejudge_board, rejudge_pending, hdrop.board, hdrop.pending, and_self]

/-- A transaction leaves a field alone that its body leaves alone. -/
theorem transactStatus_queues {s : State} {body : State → State × Status}
    (h : (body s).1.board = s.board ∧ (body s).1.pending = s.pending) :
    (s.transactStatus body).board = s.board ∧ (s.transactStatus body).pending = s.pending := by
  by_cases hready : s.portReady
  · rw [transactStatus_ready s body hready]; exact h
  · rw [transactStatus_unready s body hready]; exact ⟨rfl, rfl⟩

/-- The commands to come and the levels to come stay where they are. -/
theorem exec_queues {c : Instr} {s t : State} (h : exec c s = .next t) :
    t.board = s.board ∧ t.pending = s.pending := by
  have hsettled := grantFrame_settled s
  have hordinary : ordinary c = true → t.board = s.board ∧ t.pending = s.pending := fun hc =>
    have hsame := scheduleSame_ordinary hc h
    ⟨hsame.board.trans hsettled.board, hsame.pending.trans hsettled.pending⟩
  cases c with
  | grant => cases h; exact ⟨(grantFrame_arbitrated s).board, (grantFrame_arbitrated s).pending⟩
  | memoryResponse r d =>
    cases h
    have hsame := scheduleSame_response s.arbitrated r d
    exact ⟨hsame.board.trans (grantFrame_arbitrated s).board, hsame.pending.trans (grantFrame_arbitrated s).pending⟩
  | hardReset => cases h; exact ⟨hsettled.board, hsettled.pending⟩
  | engineReset arg =>
    cases h
    obtain ⟨hboard, hpending⟩ := transactStatus_queues (body := State.engineResetAction) (engineReset_queues s.settled)
    exact ⟨hboard.trans hsettled.board, hpending.trans hsettled.pending⟩
  | _ => exact hordinary rfl

/-- Settles O2: every command answers, and the queues are none of its business. -/
theorem everyCommandAnswersNext : Obligations.EveryCommandAnswersNext := by
  unfold Obligations.EveryCommandAnswersNext
  intro c s
  obtain ⟨t, ht⟩ := exec_next c s
  obtain ⟨hboard, hpending⟩ := exec_queues ht
  exact ⟨t, ht, hpending, hboard⟩

/-! ## O34 -/

/-- R137, R138: after its count, a grant leaves the streak and the pointer alone. -/
theorem grantTo_streak (s : State) (q : Requester) :
    (s.grantTo q).streak = (s.noteGrant q).streak ∧ (s.grantTo q).pointer = (s.noteGrant q).pointer := by
  have hport : ∀ (u : State) (x : Port), (u.grantPort x q).streak = u.streak ∧ (u.grantPort x q).pointer = u.pointer := by
    intro u x
    unfold State.grantPort
    split
    next a r _ =>
      have hsame := handlersSame_grantEffect ((u.setPhase x (.issued a r)).issue q { a with addr := r.addr }) a r
      have hissued : ScheduleSame u ((u.setPhase x (.issued a r)).issue q { a with addr := r.addr }) := by
        cases x <;> exact ⟨rfl, rfl, rfl, rfl⟩
      exact ⟨hsame.streak.trans hissued.streak, hsame.pointer.trans hissued.pointer⟩
    · exact ⟨rfl, rfl⟩
  cases q with
  | consumer => exact hport _ .c
  | producer => exact hport _ .p
  | copy =>
    show (State.issue _ _ _).streak = _ ∧ (State.issue _ _ _).pointer = _
    rw [grantEngine_eq]
    exact ⟨rfl, rfl⟩

theorem arbitrated_streak {s : State} {q : Requester} (h : s.decision = some q) :
    s.arbitrated.streak = (s.noteGrant q).streak ∧ s.arbitrated.pointer = (s.noteGrant q).pointer := by
  rw [arbitrated_some h, rejudge_streak, rejudge_pointer]
  exact grantTo_streak s q

/-- R137, R138: what a grant, or none, does to the streak and the pointer. -/
theorem grant_streak (s : State) :
    (s.decision = none → s.arbitrated.streak = s.streak ∧ s.arbitrated.pointer = s.pointer) ∧
    (s.decision = some .consumer → s.arbitrated.streak = min (s.streak + 1) 8 ∧ s.arbitrated.pointer = s.pointer) ∧
    (s.decision = some .producer → s.arbitrated.streak = 0 ∧ s.arbitrated.pointer = .producer) ∧
    (s.decision = some .copy → s.arbitrated.streak = 0 ∧ s.arbitrated.pointer = .copy) :=
  ⟨fun h => by rw [arbitrated_none h]; exact ⟨rfl, rfl⟩, fun h => arbitrated_streak h, fun h => arbitrated_streak h,
    fun h => arbitrated_streak h⟩

/-- A state whose mark is set is the one the next command acts on. -/
theorem settled_streak_of_freed {s : State} (h : s.freed = true) :
    s.settled.streak = s.streak ∧ s.settled.pointer = s.pointer := by
  unfold State.settled
  split
  · exact ⟨rfl, rfl⟩
  · rw [if_pos h]; exact ⟨rfl, rfl⟩

theorem settled_streak_of_not_freed {s : State} (h : s.freed = false) :
    s.settled.streak = s.arbitrated.streak ∧ s.settled.pointer = s.arbitrated.pointer := by
  rw [settled_of_not_freed h]
  exact ⟨rfl, rfl⟩

/-- R137, R138: a command other than a grant or a reset moves neither, after the grant it takes first. -/
theorem command_streak {c : Instr} {s t : State} (hgrant : c ≠ .grant) (hhard : c ≠ .hardReset)
    (hengine : ∀ arg, c ≠ .engineReset arg) (h : exec c s = .next t) :
    (s.freed = true → (∀ r d, c ≠ .memoryResponse r d) → t.streak = s.streak ∧ t.pointer = s.pointer) ∧
    (s.freed = false ∨ (∃ r d, c = .memoryResponse r d) →
      ∃ u, exec .grant s = .next u ∧ t.streak = u.streak ∧ t.pointer = u.pointer) := by
  by_cases hresponse : ∃ r d, c = .memoryResponse r d
  · obtain ⟨r, d, rfl⟩ := hresponse
    cases h
    have hsame := scheduleSame_response s.arbitrated r d
    exact ⟨fun _ hno => absurd rfl (hno r d), fun _ => ⟨s.arbitrated, rfl, hsame.streak, hsame.pointer⟩⟩
  · have hordinary : ordinary c = true := by
      cases c with
      | grant => exact absurd rfl hgrant
      | hardReset => exact absurd rfl hhard
      | engineReset arg => exact absurd rfl (hengine arg)
      | memoryResponse r d => exact absurd ⟨r, d, rfl⟩ hresponse
      | _ => rfl
    have hsame := scheduleSame_ordinary hordinary h
    refine ⟨fun hfreed _ => ?_, fun hor => ?_⟩
    · obtain ⟨hstreak, hpointer⟩ := settled_streak_of_freed hfreed
      exact ⟨hsame.streak.trans hstreak, hsame.pointer.trans hpointer⟩
    · obtain ⟨hstreak, hpointer⟩ := settled_streak_of_not_freed (hor.resolve_right hresponse)
      exact ⟨s.arbitrated, rfl, hsame.streak.trans hstreak, hsame.pointer.trans hpointer⟩

/-- A BCLK period in which no filter accepts makes no grant. -/
theorem period_streak {s : State} (hidle : s.decision = none) (hfsync : s.drive.fsync.due = false)
    (hfrz : s.drive.frz.due = false) : s.bclk.streak = s.streak ∧ s.bclk.pointer = s.pointer := by
  obtain ⟨-, -, -, hdfsync, hdfrz⟩ := begun_kept s hidle
  rw [bclk_of_idle hidle, period_quiet (hdfsync ▸ hfsync) (hdfrz ▸ hfrz)]
  have hsame := inputsSame_prescale (begun ({ s with freed := false } : State).drive)
  exact ⟨hsame.streak.trans (drive_streak _), hsame.pointer.trans (drive_pointer _)⟩

/-- Settles O34: a grant alone moves the streak count and the pointer. -/
theorem streakAndPointerFollowGrants : Obligations.StreakAndPointerFollowGrants := by
  unfold Obligations.StreakAndPointerFollowGrants
  refine ⟨fun s t h => ?_, fun c s t hgrant hhard hengine h => command_streak hgrant hhard hengine h,
    fun s t hempty hstep => ⟨fun hdue => ?_, fun hidle hfsync hfrz => ?_⟩⟩
  · cases h
    exact grant_streak s
  · exact (step_of_empty_due hempty hdue).symm.trans hstep
  · cases (step_of_empty_idle hempty hidle).symm.trans hstep
    exact period_streak hidle hfsync hfrz

end Sys2Proof.Laws
end

section
/-! A BCLK period in which a filter accepts. Settles O4. -/

namespace Sys2Proof.Laws

open Sys2Proof Sys2Proof.Machine

/-! ## The filters -/

theorem due_iff (f : Filter) : f.due = true ↔ f.pin ≠ f.accepted ∧ 3 ≤ f.run := by
  unfold Filter.due
  rw [Bool.and_eq_true, bne_iff_ne, decide_eq_true_iff]
  exact Iff.rfl

theorem sample_steady {f : Filter} (h : f.pin = f.accepted) : f.due = false ∧ f.sample = { f with run := 0 } := by
  refine ⟨Bool.eq_false_iff.mpr fun hdue => ((due_iff f).mp hdue).1 h, ?_⟩
  unfold Filter.sample
  exact if_pos h

theorem sample_counts {f : Filter} (h : f.pin ≠ f.accepted) (hrun : f.run < 3) :
    f.due = false ∧ f.sample = { f with run := f.run + 1 } := by
  have hdue : f.due = false := Bool.eq_false_iff.mpr fun hdue => Nat.not_le_of_lt hrun ((due_iff f).mp hdue).2
  refine ⟨hdue, ?_⟩
  unfold Filter.sample
  rw [if_neg h, hdue]
  rfl

/-- A filter whose acceptance is due samples no further before it accepts. -/
theorem sample_of_due {f : Filter} (h : f.due = true) : f.sample = f := by
  unfold Filter.sample
  rw [if_neg ((due_iff f).mp h).1, if_pos h]

/-- The filter after it has accepted its pin. -/
def acceptedFilter (f : Filter) : Filter := { pin := f.pin, accepted := f.pin, run := 0 }

/-- R145, R147: the Freeze Unit after an accepted change of FRZ to a level. -/
def freezeAfter (z : FreezeUnit) (level : Bool) : FreezeUnit :=
  if level then { z with level := true, line := true, latch := true } else { z with level := false }

/-! ## One event of a period -/

/-- The command that one event of the period is, on the state `d` in which the period samples its inputs. -/
def edgeCommand (d : State) : ClockEvent → Instr
  | .frz => if d.frz.pin then .frzRise else .frzFall
  | .fsync => if d.fsync.pin then .fsyncEdge else .fsyncFall
  | .prescaler => .tick

/-- The state after a command. -/
def effectOf (c : Instr) (u : State) : State :=
  match exec c u with
  | .next v => v
  | .fault _ => u
  | .refused _ => u

/-- R66: the prescaler's count, with the tick it delivers. -/
def prescalerCount (u : State) : State :=
  if u.timer.mode = .off then u
  else if u.timer.fpre.toNat ≤ u.timer.prescale + 1 then effectOf .tick u
  else { u with timer := { u.timer with prescale := u.timer.prescale + 1 } }

/-- One event of the period, as the effect of its command. -/
def eventEffect (d : State) : ClockEvent → State → State
  | .frz => effectOf (edgeCommand d .frz)
  | .fsync => effectOf (edgeCommand d .fsync)
  | .prescaler => prescalerCount

/-- Between the events of a period no decision is open, and the pins keep the levels that were sampled. -/
structure Ticking (d u : State) : Prop where
  freed : u.freed = false
  frz : u.frz.pin = d.frz.pin
  fsync : u.fsync.pin = d.fsync.pin

/-- The grant that is due before an event is made, and none is due after it. -/
theorem arbitrated_idle {u : State} (h : u.freed = false) :
    u.arbitrated.decision = none ∧ u.arbitrated.freed = false ∧ u.arbitrated.settled = u.arbitrated := by
  have hidle := decision_arbitrated u
  have hfreed : u.arbitrated.freed = false := by
    cases hd : u.decision with
    | none => rw [arbitrated_none hd]; exact h
    | some q => exact freed_arbitrated hd
  exact ⟨hidle, hfreed, settled_self hidle hfreed⟩

theorem ticking_arbitrated {d u : State} (h : Ticking d u) : Ticking d u.arbitrated where
  freed := (arbitrated_idle h.freed).2.1
  frz := (congrArg Filter.pin (grantFrame_arbitrated u).frz).trans h.frz
  fsync := (congrArg Filter.pin (grantFrame_arbitrated u).fsync).trans h.fsync

/-- On a settled state the prescaler's count is the model's. -/
theorem prescalerCount_eq {u : State} (hidle : u.decision = none) (hfreed : u.freed = false) : prescalerCount u = u.prescale := by
  unfold prescalerCount
  by_cases hoff : u.timer.mode = .off
  · rw [if_pos hoff, prescale_off hoff]
  · rw [if_neg hoff]
    by_cases hle : u.timer.fpre.toNat ≤ u.timer.prescale + 1
    · rw [if_pos hle, prescale_tick hoff hle]
      unfold effectOf
      rw [exec_tick_of_idle hidle hfreed]
    · rw [if_neg hle, prescale_count hoff (Nat.lt_of_not_le hle)]

/-- An event of the period is the effect of its command after the grant that is due. -/
theorem clockEvent_eq {d u : State} (h : Ticking d u) (e : ClockEvent) :
    u.clockEvent e = eventEffect d e (effectOf .grant u) := by
  obtain ⟨hidle, hfreed, hsettled⟩ := arbitrated_idle h.freed
  have hticking := ticking_arbitrated h
  cases e with
  | frz =>
    show u.arbitrated.acceptFrz u.arbitrated.frz.pin = effectOf (edgeCommand d .frz) u.arbitrated
    rw [hticking.frz]
    unfold edgeCommand
    cases d.frz.pin <;> exact congrArg (State.acceptFrz · _) hsettled.symm
  | fsync =>
    show u.arbitrated.acceptFsync u.arbitrated.fsync.pin = effectOf (edgeCommand d .fsync) u.arbitrated
    rw [hticking.fsync]
    unfold edgeCommand
    cases d.fsync.pin <;> exact congrArg (State.acceptFsync · _) hsettled.symm
  | prescaler => exact (prescalerCount_eq hidle hfreed).symm

/-- R77: what one event of the period does to the inputs. -/
structure EventInputs (e : ClockEvent) (u t : State) : Prop where
  freed : t.freed = false
  frz : t.frz = if e = .frz then acceptedFilter u.frz else u.frz
  freeze : (e = .frz → u.frz.pin ≠ u.frz.accepted) →
    t.freeze = if e = .frz then freezeAfter u.freeze u.frz.pin else u.freeze
  fsync : t.fsync = if e = .fsync then acceptedFilter u.fsync else u.fsync

theorem eventInputs_clockEvent {u : State} (hfreed : u.freed = false) (e : ClockEvent) :
    EventInputs e u (u.clockEvent e) := by
  have hgrant := grantFrame_arbitrated u
  have hidle := (arbitrated_idle hfreed).2.1
  cases e with
  | frz =>
    have hsame := acceptFrz_inputs u.arbitrated u.arbitrated.frz.pin
    refine ⟨hsame.freed.trans hidle, hsame.frz.trans ?_, fun hpin => hsame.freeze.trans ?_, hsame.fsync.trans hgrant.fsync⟩
    · rw [hgrant.frz]; rfl
    · dsimp only
      rw [hgrant.frz, hgrant.freeze, if_neg (hpin rfl)]
      rfl
  | fsync =>
    have hsame := inputsSame_acceptFsync u.arbitrated u.arbitrated.fsync.pin
    refine ⟨hsame.freed.trans hidle, hsame.frz.trans hgrant.frz, fun _ => hsame.freeze.trans hgrant.freeze,
      hsame.fsync.trans ?_⟩
    rw [hgrant.fsync]; rfl
  | prescaler =>
    have hsame := inputsSame_prescale u.arbitrated
    exact ⟨hsame.freed.trans hidle, hsame.frz.trans hgrant.frz, fun _ => hsame.freeze.trans hgrant.freeze,
      hsame.fsync.trans hgrant.fsync⟩

theorem EventInputs.ticking {d u t : State} {e : ClockEvent} (h : EventInputs e u t) (k : Ticking d u) : Ticking d t where
  freed := h.freed
  frz := by rw [h.frz]; split <;> exact k.frz
  fsync := by rw [h.fsync]; split <;> exact k.fsync

/-! ## The events of a period -/

/-- The events taken one after the other are their commands' effects, each after the grant that is due. -/
theorem foldl_clockEvent_eq {d : State} (es : List ClockEvent) {u : State} (h : Ticking d u) :
    es.foldl State.clockEvent u = (es.map (eventEffect d)).foldl (fun v e => e (effectOf .grant v)) u := by
  induction es generalizing u with
  | nil => rfl
  | cons e es ih =>
    have hnext := ih ((eventInputs_clockEvent h.freed e).ticking h)
    exact hnext.trans (congrArg (List.foldl _ · _) (clockEvent_eq h e))

/-- R77: each input after a period's events, none of them taken twice. -/
theorem foldl_clockEvent_inputs (es : List ClockEvent) {u : State} (hfreed : u.freed = false) (honce : es.Nodup) :
    (es.foldl State.clockEvent u).frz = (if .frz ∈ es then acceptedFilter u.frz else u.frz) ∧
    ((.frz ∈ es → u.frz.pin ≠ u.frz.accepted) →
      (es.foldl State.clockEvent u).freeze = if .frz ∈ es then freezeAfter u.freeze u.frz.pin else u.freeze) ∧
    (es.foldl State.clockEvent u).fsync = (if .fsync ∈ es then acceptedFilter u.fsync else u.fsync) := by
  induction es generalizing u with
  | nil => exact ⟨rfl, fun _ => rfl, rfl⟩
  | cons e es ih =>
    obtain ⟨hnot, hrest⟩ := List.nodup_cons.mp honce
    have hevent := eventInputs_clockEvent hfreed e
    obtain ⟨hfrz, hfreeze, hfsync⟩ := ih hevent.freed hrest
    simp only [List.foldl_cons, List.mem_cons]
    refine ⟨?_, fun hpin => ?_, ?_⟩
    · rw [hfrz, hevent.frz]
      by_cases he : e = .frz
      · subst he; simp [hnot]
      · simp [he, Ne.symm he]
    · by_cases he : e = .frz
      · subst he
        rw [hfreeze fun hmem => absurd hmem hnot, hevent.freeze fun _ => hpin (.inl rfl)]
        simp [hnot]
      · have hsame : (u.clockEvent e).frz = u.frz := by rw [hevent.frz, if_neg he]
        rw [hfreeze fun hmem => hsame.symm ▸ hpin (.inr hmem), hevent.freeze fun h => absurd h he, hsame]
        simp [he, Ne.symm he]
    · rw [hfsync, hevent.fsync]
      by_cases he : e = .fsync
      · subst he; simp [hnot]
      · simp [he, Ne.symm he]

/-! ## The order of the events -/

theorem clockOrder_nodup : ∀ k, (clockOrder k).Nodup := by decide

theorem mem_clockOrder : ∀ k e, e ∈ clockOrder k := by
  intro k e
  revert k
  cases e <;> decide

theorem clockOrder_perm : ∀ k, (clockOrder k).Perm [.prescaler, .frz, .fsync] := by decide

/-- The events of the period that samples its inputs in `d`, in the order that is chosen. -/
def periodEvents (d : State) : List ClockEvent := (clockOrder (Config.bclkOrder d.freeCount)).filter d.clockHas

theorem mem_periodEvents (d : State) (e : ClockEvent) : e ∈ periodEvents d ↔ d.clockHas e = true :=
  List.mem_filter.trans (and_iff_right (mem_clockOrder _ e))

theorem periodEvents_nodup (d : State) : (periodEvents d).Nodup := (clockOrder_nodup _).filter _

/-- The state in which the events of a period in which a filter accepts are taken. -/
def eventsBegun (d : State) : State := { begun d with freeCount := d.freeCount + 1 }

theorem period_events {d : State} (h : d.fsync.due = true ∨ d.frz.due = true) :
    d.period = (periodEvents d).foldl State.clockEvent (eventsBegun d) := by
  have hdue : (d.fsync.due || d.frz.due) = true := by simpa using h
  unfold State.period
  exact if_pos hdue

theorem ticking_eventsBegun {d : State} (h : d.freed = false) : Ticking d (eventsBegun d) := by
  have hpin : ∀ f : Filter, f.sample.pin = f.pin := fun f => by unfold Filter.sample; split <;> [rfl; split <;> rfl]
  exact ⟨h, hpin d.frz, hpin d.fsync⟩

/-- The edges of the accepting filters, as effects. -/
def acceptedEdges (d : State) : List (State → State) :=
  (if d.frz.due then [effectOf (if d.frz.pin then .frzRise else .frzFall)] else []) ++
    (if d.fsync.due then [effectOf (if d.fsync.pin then .fsyncEdge else .fsyncFall)] else [])

theorem acceptedEdges_ne_nil {d : State} (h : acceptedEdges d ≠ []) : d.fsync.due = true ∨ d.frz.due = true := by
  unfold acceptedEdges at h
  cases hfsync : d.fsync.due
  · cases hfrz : d.frz.due
    · rw [hfsync, hfrz] at h; exact absurd rfl h
    · exact .inr rfl
  · exact .inl rfl

/-- The events of a period are the prescaler's count and the edges of the accepting filters, once each. -/
theorem periodEvents_perm (d : State) : ((periodEvents d).map (eventEffect d)).Perm (prescalerCount :: acceptedEdges d) := by
  have horder : (periodEvents d).Perm ([.prescaler, .frz, .fsync].filter d.clockHas) := (clockOrder_perm _).filter _
  refine (horder.map (eventEffect d)).trans (List.Perm.of_eq ?_)
  unfold acceptedEdges
  have hfrz : d.clockHas .frz = d.frz.due := rfl
  have hfsync : d.clockHas .fsync = d.fsync.due := rfl
  have hcount : d.clockHas .prescaler = true := rfl
  cases hf : d.frz.due <;> cases hs : d.fsync.due <;> simp [hfrz, hfsync, hcount, hf, hs] <;> simp [eventEffect, edgeCommand]

/-! ## O4 -/

/-- R77: each input after the events of a period that samples its inputs in `d`. -/
theorem period_inputs {d : State} (hfreed : d.freed = false) :
    ((d.frz.due = true → d.period.frz = acceptedFilter d.frz ∧ d.period.freeze = freezeAfter d.freeze d.frz.pin) ∧
     (d.frz.due = false → d.period.frz = d.frz.sample ∧ d.period.freeze = d.freeze)) ∧
    ((d.fsync.due = true → d.period.fsync = acceptedFilter d.fsync) ∧
     (d.fsync.due = false → d.period.fsync = d.fsync.sample)) := by
  by_cases hdue : d.fsync.due = true ∨ d.frz.due = true
  · obtain ⟨hfrz, hfz, hfsync⟩ := foldl_clockEvent_inputs (periodEvents d) (u := eventsBegun d) hfreed (periodEvents_nodup d)
    rw [period_events hdue, hfrz, hfsync]
    simp only [mem_periodEvents] at hfz ⊢
    have hbegunFrz : (eventsBegun d).frz = d.frz.sample := rfl
    have hbegunFsync : (eventsBegun d).fsync = d.fsync.sample := rfl
    have hfrzHas : d.clockHas .frz = d.frz.due := rfl
    have hfsyncHas : d.clockHas .fsync = d.fsync.due := rfl
    rw [hbegunFrz, hfrzHas] at hfz
    rw [hbegunFrz, hbegunFsync, hfrzHas, hfsyncHas]
    refine ⟨⟨fun h => ?_, fun h => ?_⟩, fun h => ?_, fun h => ?_⟩
    · rw [sample_of_due h] at hfz ⊢
      exact ⟨if_pos h, (hfz fun _ => ((due_iff _).mp h).1).trans (if_pos h)⟩
    · have hno : ¬d.frz.due = true := by rw [h]; exact Bool.false_ne_true
      exact ⟨if_neg hno, (hfz fun hmem => absurd hmem hno).trans (if_neg hno)⟩
    · rw [sample_of_due h]; exact if_pos h
    · rw [h]; exact if_neg Bool.false_ne_true
  · obtain ⟨hfsync, hfrz⟩ := not_or.mp hdue
    rw [Bool.not_eq_true] at hfsync hfrz
    have hsame := inputsSame_prescale (begun d)
    rw [period_quiet hfsync hfrz, hsame.frz, hsame.fsync, hsame.freeze]
    exact ⟨⟨fun h => absurd (hfrz.symm.trans h) Bool.false_ne_true, fun _ => ⟨rfl, rfl⟩⟩,
      fun h => absurd (hfsync.symm.trans h) Bool.false_ne_true, fun _ => rfl⟩

/-- Settles O4: by the filters' own equations, and for the period by following its events one after the other. -/
theorem filterAcceptsAtFourthSample : Obligations.FilterAcceptsAtFourthSample := by
  unfold Obligations.FilterAcceptsAtFourthSample
  refine ⟨fun f hpin => sample_steady hpin, fun f hpin hrun => sample_counts hpin hrun,
    fun f hpin hrun => (due_iff f).mpr ⟨hpin, Nat.le_of_eq hrun.symm⟩, fun s hempty hidle => ?_,
    fun s hempty hidle => ?_⟩
  · obtain ⟨-, hfreed, hfreeze, hdfsync, hdfrz⟩ := begun_kept s hidle
    have hinputs := period_inputs (d := ({ s with freed := false } : State).drive) hfreed
    rw [hdfsync, hdfrz, drive_freeze] at hinputs
    exact ⟨s.bclk, step_of_empty_idle hempty hidle, (bclk_of_idle hidle).symm ▸ hinputs⟩
  · intro d begun' run' count' edges' hne
    have hdue : d.fsync.due = true ∨ d.frz.due = true := acceptedEdges_ne_nil hne
    have hfreed : d.freed = false := (begun_kept s hidle).2.1
    refine ⟨(periodEvents d).map (eventEffect d), periodEvents_perm d, ?_⟩
    rw [step_of_empty_idle hempty hidle, bclk_of_idle hidle]
    exact congrArg Host.Outcome.next
      ((period_events hdue).trans (foldl_clockEvent_eq (periodEvents d) (ticking_eventsBegun hfreed)))

end Sys2Proof.Laws
end

section
/-! The accesses that no view translates, and the producer's writes of a view: each is judged once below, and its
acceptance and its judgement anew both cite that. Settles O23, O26, O27 and O28. -/

namespace Sys2Proof.Laws

open Sys2Proof Sys2Proof.Machine

/-! ## The form test -/

theorem twoBits : ∀ b : BitVec 2, b = 0#2 ∨ b = 1#2 ∨ b = 2#2 ∨ b = 3#2 := by decide

/-- R26: the form test of a single beat. -/
theorem formOk_single {a : Access} (h : a.blen = 0#2) : formOk a = true ↔
    a.size = 0#2 ∨ (a.size = 1#2 ∧ a.addr.toNat % 2 = 0) ∨ (a.size = 2#2 ∧ a.addr.toNat % 4 = 0) := by
  unfold formOk
  rw [if_pos h]
  rcases twoBits a.size with hsize | hsize | hsize | hsize <;> simp [hsize]

/-- R26: the form test of a burst. -/
theorem formOk_burst {a : Access} (h : a.blen ≠ 0#2) :
    formOk a = true ↔ a.size = 2#2 ∧ a.addr.toNat % (4 * a.beats) = 0 := by
  unfold formOk
  rw [if_neg h, Bool.and_eq_true, beq_iff_eq, beq_iff_eq]

theorem beats_eq {a : Access} {b : BitVec 2} (h : a.blen = b) : a.beats = 2 ^ b.toNat := by
  unfold Access.beats
  rw [h]

/-- R26: the accesses that pass the form test. -/
theorem formOk_iff (a : Access) : formOk a = true ↔
    (a.blen = 0#2 ∧
      (a.size = 0#2 ∨ (a.size = 1#2 ∧ a.addr.toNat % 2 = 0) ∨ (a.size = 2#2 ∧ a.addr.toNat % 4 = 0))) ∨
    (a.blen = 1#2 ∧ a.size = 2#2 ∧ a.addr.toNat % 8 = 0) ∨ (a.blen = 2#2 ∧ a.size = 2#2 ∧ a.addr.toNat % 16 = 0) ∨
    (a.blen = 3#2 ∧ a.size = 2#2 ∧ a.addr.toNat % 32 = 0) := by
  rcases twoBits a.blen with h | h | h | h
  · rw [formOk_single h]; simp [h]
  · rw [formOk_burst (by rw [h]; decide), beats_eq h]; simp [h]
  · rw [formOk_burst (by rw [h]; decide), beats_eq h]; simp [h]
  · rw [formOk_burst (by rw [h]; decide), beats_eq h]; simp [h]

/-- R26: what passes the form test lies in one aligned 32-byte block. -/
theorem block_of_formOk {a : Access} (h : formOk a = true) : a.addr.toNat % 32 + 2 ^ a.size.toNat * a.beats ≤ 32 := by
  rcases (formOk_iff a).mp h with ⟨hb, hs | ⟨hs, hm⟩ | ⟨hs, hm⟩⟩ | ⟨hb, hs, hm⟩ | ⟨hb, hs, hm⟩ | ⟨hb, hs, hm⟩ <;>
    rw [beats_eq hb, hs]
  · show a.addr.toNat % 32 + 1 ≤ 32; omega
  · show a.addr.toNat % 32 + 2 ≤ 32; omega
  · show a.addr.toNat % 32 + 4 ≤ 32; omega
  · show a.addr.toNat % 32 + 8 ≤ 32; omega
  · show a.addr.toNat % 32 + 16 ≤ 32; omega
  · show a.addr.toNat % 32 + 32 ≤ 32; omega

/-- R26, R27: an access that fails the form test is answered ERROR. -/
theorem present_misformed {s : State} {x : Port} {a : Access} (hidle : s.phaseOf x = .idle) (h : formOk a = false) :
    s.present x a = (s.refuseAccess x a).record { kind := .alignFault, detail := portCode x } := by
  rw [present_of_idle a hidle]
  unfold State.accept
  rw [if_neg (by rw [h]; exact Bool.false_ne_true)]

/-- R25: a handler that holds an access accepts no other. -/
theorem present_of_busy {s : State} {x : Port} (a : Access) (h : s.phaseOf x ≠ .idle) : s.present x a = s := by
  unfold State.present
  split
  next hidle => exact absurd hidle h
  · rfl

/-- Settles O23: the form test case by case, and the two ways to present an access that judges nothing. -/
theorem formTestAtAcceptance : Obligations.FormTestAtAcceptance := by
  unfold Obligations.FormTestAtAcceptance
  refine ⟨fun a => ⟨formOk_iff a, block_of_formOk⟩, fun x a s hsettled hidle hform => ?_,
    fun x a s hsettled hbusy => ?_⟩
  · show s.event (fun t => t.present x a) = _
    rw [event_settled _ hsettled, present_misformed hidle hform, refuseAccess_eq, readBeats_nil]
    cases x <;> rfl
  · show s.event (fun t => t.present x a) = _
    rw [event_settled _ hsettled, present_of_busy a hbusy]

/-! ## Judgements anew -/

theorem rejudge_port (s : State) (x : Port) : s.rejudge.port x = (s.settle x).port x := by
  cases x with
  | p => exact rejudge_pPort s
  | c => exact rejudge_cPort s

/-- R29: a handler whose access waits stands as its judgement leaves it. -/
theorem rejudge_port_of_waits {s : State} {x : Port} {a : Access} (h : s.waits x a) :
    s.rejudge.port x = (s.judgeAccess x a).port x := by
  rw [rejudge_port, settle_of_waits h]

/-- R29: beside an IDLE handler the other's judgement is all there is. -/
theorem rejudge_of_other_idle {s : State} {x : Port} {a : Access} (h : s.waits x a)
    (hother : ∀ y, y ≠ x → s.phaseOf y = .idle) : s.rejudge = s.judgeAccess x a := by
  cases x with
  | p =>
    have hidle := hother .c nofun
    have hkept : (s.settle .p).phaseOf .c = .idle :=
      (congrArg PortState.phase (settle_otherPort s (x := .p) (y := .c) nofun)).trans hidle
    rw [rejudge_of_no_record s .c (recordsNow_of_idle hidle), settle_idle _ .c hkept, settle_of_waits h]
  | c => rw [rejudge_of_producer_idle (hother .p nofun), settle_of_waits h]

theorem rejudge_of_consumer_idle {s : State} {a : Access} (h : s.waits .p a) (hidle : s.cPort.phase = .idle) :
    s.rejudge = s.judgeAccess .p a :=
  rejudge_of_other_idle h fun y hy => match y with
    | .p => absurd rfl hy
    | .c => hidle

/-! ## Accesses that no view translates -/

/-- R28: the handler of an access that waits for its grant at its own address. -/
def waitingAt (c : AccessClass) (a : Access) : PortState :=
  { phase := .pending a { cls := c, addr := a.addr }, resp := none }

/-- R27: the handler of an access just answered ERROR. -/
def refused (a : Access) : PortState := { phase := .idle, resp := some { resp := .error, rdata := readBeats a [] } }

/-- R42: an access of no view is no late write. -/
theorem mergeToNote_of_not_view {s : State} {x : Port} {a : Access} (h : ∀ w, s.place x a ≠ .view w) :
    s.mergeToNote x a = none := by
  cases hnote : s.mergeToNote x a with
  | none => rfl
  | some wp =>
    obtain ⟨rfl, -, hview, -⟩ := mergeToNote_eq_some.mp hnote
    exact absurd hview (h _)

theorem judgeAccess_of_not_view {s : State} {x : Port} {a : Access} (h : ∀ w, s.place x a ≠ .view w) :
    s.judgeAccess x a = s.takeJudgement x a (s.judge x a) := judgeAccess_of_not_noted (mergeToNote_of_not_view h)

/-- R31: a plain access. -/
theorem judgeAccess_plain {s : State} {x : Port} {a : Access} (h : s.place x a = .plain) :
    s.judgeAccess x a = (s.clearHold x).setPort x (waitingAt .plain a) := by
  rw [judgeAccess_of_not_view (fun w => by rw [h]; nofun)]
  unfold State.judge
  rw [h]
  rfl

/-- R37: a marker. -/
theorem judgeAccess_marker {s : State} {x : Port} {a : Access} {w : Fin 8} {m : Marker} (h : s.place x a = .marker w m) :
    s.judgeAccess x a = (s.clearHold x).setPort x (waitingAt (.marker w m) a) := by
  rw [judgeAccess_of_not_view (fun w => by rw [h]; nofun)]
  unfold State.judge
  rw [h]
  rfl

/-- R32: an access of an unguarded bank region. -/
theorem judgeAccess_bankRegion {s : State} {x : Port} {a : Access} {w : Fin 8} {k : Bank}
    (h : s.place x a = .bankRegion w k) (hguard : (s.desc w).guard = false) :
    s.judgeAccess x a = (s.clearHold x).setPort x (waitingAt (.bankRegion w k) a) := by
  rw [judgeAccess_of_not_view (fun w => by rw [h]; nofun)]
  unfold State.judge
  rw [h]
  dsimp only
  rw [if_neg (by rw [hguard]; exact Bool.false_ne_true)]
  rfl

/-- R38: an access of a guarded bank region. -/
theorem judgeAccess_guarded {s : State} {x : Port} {a : Access} {w : Fin 8} {k : Bank}
    (h : s.place x a = .bankRegion w k) (hguard : (s.desc w).guard = true) :
    s.judgeAccess x a = ((s.clearHold x).setPort x (refused a)).record
      { kind := .guard, window := some w, detail := k.code } := by
  rw [judgeAccess_of_not_view (fun w => by rw [h]; nofun)]
  unfold State.judge
  rw [h]
  dsimp only
  rw [if_pos hguard]
  show ((s.clearHold x).refuseAccess x a).record _ = _
  rw [refuseAccess_eq]
  rfl

theorem judge_hold_view {s : State} {x : Port} {a : Access} {why : HoldReason} {w : Fin 8} {p : Fin 512}
    (h : s.judge x a = .hold why w p) : ∃ v, s.place x a = .view v := by
  unfold State.judge at h
  split at h
  · cases h
  next v hplace => exact ⟨v, hplace⟩
  · split at h <;> cases h
  · cases h

/-- R45: the hold count is 0 after every judgement but one that holds a late write. -/
theorem holdCount_takeJudgement (s : State) (a : Access) {j : Judgement} (h : ∀ w p, j ≠ .hold .sealed w p) :
    (s.takeJudgement .p a j).holdCount = 0 := by
  cases j with
  | go r => rfl
  | hold why w p =>
    cases why with
    | demand => show (State.promote _ p).holdCount = 0; rw [promote_eq]; rfl
    | sealed => exact absurd rfl (h w p)
  | refuse e => show (State.record _ e).holdCount = 0; rw [record_holdCount]; rfl

theorem port_of_record_setPort (s : State) (x : Port) (v : PortState) (e : Event) :
    ((s.setPort x v).record e).port x = v := (port_record _ e x).trans (port_setPort_same s x v)

/-- Settles O28: an access that no view translates is judged once, at its acceptance and wherever it waits. -/
theorem untranslatedAndGuardedAccesses : Obligations.UntranslatedAndGuardedAccesses := by
  unfold Obligations.UntranslatedAndGuardedAccesses
  refine ⟨fun s x a hsettled hidle hform => ?accepted, fun s x a hwaits => ?waiting⟩
  case accepted =>
    rw [exec_accessAccepted_judged hsettled hidle hform]
    refine ⟨fun hplace => ?_, fun w m hplace => ?_, fun w k hplace hguard => ?_, fun w k hplace hguard => ?_⟩
    · rw [judgeAccess_plain hplace]; cases x <;> rfl
    · rw [judgeAccess_marker hplace]; cases x <;> rfl
    · rw [judgeAccess_bankRegion hplace hguard]; cases x <;> rfl
    · rw [judgeAccess_guarded hplace hguard]; cases x <;> cases k <;> rfl
  case waiting =>
    refine ⟨fun hx hview => ?_, fun hplace => ?_, fun w m hplace => ?_, fun w k hplace hguard => ?_,
      fun w k hplace hguard => ⟨?_, fun hother => ?_⟩⟩
    · subst hx
      rw [rejudge_holdCount, settle_of_waits hwaits, judgeAccess_of_not_view hview]
      exact holdCount_takeJudgement s a fun w p h => (judge_hold_view h).elim fun v hplace => hview v hplace
    · rw [rejudge_port_of_waits hwaits, judgeAccess_plain hplace]; exact port_setPort_same _ x _
    · rw [rejudge_port_of_waits hwaits, judgeAccess_marker hplace]; exact port_setPort_same _ x _
    · rw [rejudge_port_of_waits hwaits, judgeAccess_bankRegion hplace hguard]; exact port_setPort_same _ x _
    · rw [rejudge_port_of_waits hwaits, judgeAccess_guarded hplace hguard]; exact port_of_record_setPort _ x _ _
    · rw [rejudge_of_other_idle hwaits hother, judgeAccess_guarded hplace hguard]; cases x <;> cases k <;> rfl

end Sys2Proof.Laws
end

section
/-! The producer's writes of a view, of an OPEN window and late ones. Settles O26 and O27. -/

namespace Sys2Proof.Laws

open Sys2Proof Sys2Proof.Machine

/-! ## Writes of an OPEN window -/

/-- R28: the handler of a write that is held. -/
def holding (a : Access) (why : HoldReason) (w : Fin 8) (p : Fin 512) : PortState :=
  { phase := .held a why w p, resp := none }

/-- R36: a write of an OPEN window is no late write. -/
theorem judgeAccess_openWrite {s : State} {a : Access} {w : Fin 8} (hwrite : a.write = true)
    (hplace : s.place .p a = .view w) (hopen : (s.window w).commit = .isOpen) :
    s.judgeAccess .p a = s.takeJudgement .p a (s.judgeWrite w ((s.desc w).pageAt a.addr) a) := by
  have hsealed : s.isSealed w = false := by unfold State.isSealed; rw [hopen]; rfl
  have hnote : s.mergeToNote .p a = none := by
    unfold State.mergeToNote
    rw [hwrite, hplace]
    dsimp only
    rw [hsealed]
    rfl
  rw [judgeAccess_of_not_noted hnote, judge_of_view hplace]
  unfold State.judgeView
  rw [hwrite]
  dsimp only
  unfold State.judgeProducerWrite
  rw [hsealed]
  rfl

theorem judgeWrite_served {s : State} {p : Fin 512} (h : (s.page p).state = .synced ∨ (s.page p).state = .dirty)
    (w : Fin 8) (a : Access) : s.judgeWrite w p a = s.served w p (s.page p).bank.other a := by
  unfold State.judgeWrite
  rcases h with h | h <;> rw [h]

theorem judgeWrite_demand {s : State} {p : Fin 512} (h : (s.page p).state = .stale ∨ (s.page p).state = .copying)
    (w : Fin 8) (a : Access) : s.judgeWrite w p a = .hold .demand w p := by
  unfold State.judgeWrite
  rcases h with h | h <;> rw [h]

theorem judgeWrite_broken {s : State} {p : Fin 512} (h : (s.page p).state = .broken) (w : Fin 8) (a : Access) :
    s.judgeWrite w p a = .refuse { kind := .pageBrokenWrite, window := some w, page := some p } := by
  unfold State.judgeWrite
  rw [h]

/-- R36: no state of the page makes a write wait for its window. -/
theorem judgeWrite_not_sealed (s : State) (w : Fin 8) (p : Fin 512) (a : Access) (v : Fin 8) (q : Fin 512) :
    s.judgeWrite w p a ≠ .hold .sealed v q := by
  unfold State.judgeWrite
  split <;> nofun

/-- R39: a demand for a STALE page brings it to the head of the Copy Queue. -/
theorem takeJudgement_demand_stale {s : State} {p : Fin 512} (h : (s.page p).state = .stale) (a : Access) (w : Fin 8) :
    s.takeJudgement .p a (.hold .demand w p) =
      { s with holdCount := 0, pPort := holding a .demand w p, copyQueue := p :: s.copyQueue.filter (· ≠ p) } :=
  promote_stale ({ s with holdCount := 0, pPort := holding a .demand w p } : State) p h

theorem takeJudgement_demand_other {s : State} {p : Fin 512} (h : (s.page p).state ≠ .stale) (a : Access) (w : Fin 8) :
    s.takeJudgement .p a (.hold .demand w p) = { s with holdCount := 0, pPort := holding a .demand w p } :=
  promote_other ({ s with holdCount := 0, pPort := holding a .demand w p } : State) p h

theorem takeJudgement_refusedWrite (s : State) {a : Access} (h : a.write = true) (e : Event) :
    s.takeJudgement .p a (.refuse e) = ({ s with holdCount := 0, pPort := writeRefused } : State).record e := by
  show ((s.clearHold .p).refuseAccess .p a).record e = _
  rw [refuseAccess_of_write _ .p h]
  rfl

/-- Settles O26: a write of an OPEN window is judged by the state of its page, at its acceptance and wherever it
waits. -/
theorem producerWriteOfAnOpenWindow : Obligations.ProducerWriteOfAnOpenWindow := by
  unfold Obligations.ProducerWriteOfAnOpenWindow
  refine ⟨fun s a w hsettled hidle hform hwrite hplace hopen => ?accepted,
    fun s a w hwaits hwrite hplace hopen => ?waiting⟩
  case accepted =>
    dsimp only
    rw [exec_accessAccepted_judged (x := .p) hsettled hidle hform, judgeAccess_openWrite hwrite hplace hopen]
    refine ⟨fun h => ?_, fun h => ?_, fun h => ?_, fun h => ?_⟩
    · rw [judgeWrite_served h]; rfl
    · rw [judgeWrite_demand (.inl h), takeJudgement_demand_stale h]; rfl
    · rw [judgeWrite_demand (.inr h), takeJudgement_demand_other (by rw [h]; decide)]; rfl
    · rw [judgeWrite_broken h, takeJudgement_refusedWrite s hwrite]; rfl
  case waiting =>
    have hjudged : s.settle .p = s.takeJudgement .p a (s.judgeWrite w ((s.desc w).pageAt a.addr) a) :=
      (settle_of_waits hwaits).trans (judgeAccess_openWrite hwrite hplace hopen)
    dsimp only
    rw [rejudge_holdCount, rejudge_pPort, rejudge_copyQueue, hjudged]
    refine ⟨holdCount_takeJudgement s a (judgeWrite_not_sealed s w _ a), fun h => ?_, fun h => ?_, fun h => ?_,
      fun h => ⟨?_, fun hidle => ?_⟩⟩
    · rw [judgeWrite_served h]; rfl
    · rw [judgeWrite_demand (.inl h), takeJudgement_demand_stale h]; exact ⟨rfl, rfl⟩
    · rw [judgeWrite_demand (.inr h), takeJudgement_demand_other (by rw [h]; decide)]; exact ⟨rfl, rfl⟩
    · rw [judgeWrite_broken h, takeJudgement_refusedWrite s hwrite, record_pPort]; rfl
    · rw [rejudge_of_consumer_idle hwaits hidle, judgeAccess_openWrite hwrite hplace hopen, judgeWrite_broken h,
        takeJudgement_refusedWrite s hwrite]
      rfl

/-! ## Late writes -/

theorem isSealed_of_not_open {s : State} {w : Fin 8} (h : (s.window w).commit ≠ .isOpen) : s.isSealed w = true :=
  bne_iff_ne.mpr h

/-- R41: a late write of a window whose policy is not MERGE. -/
theorem judgeAccess_late {s : State} {a : Access} {w : Fin 8} (hwrite : a.write = true)
    (hplace : s.place .p a = .view w) (hlate : (s.window w).commit ≠ .isOpen)
    (hpolicy : (s.desc w).policyOf ≠ .merge) :
    s.judgeAccess .p a = s.takeJudgement .p a (s.judgeProducerWrite w ((s.desc w).pageAt a.addr) a) := by
  have hnote : s.mergeToNote .p a = none := by
    cases hnote : s.mergeToNote .p a with
    | none => rfl
    | some wp =>
      obtain ⟨-, -, hview, -, hmerge, -⟩ := mergeToNote_eq_some.mp hnote
      cases hplace.symm.trans hview
      exact absurd hmerge hpolicy
  rw [judgeAccess_of_not_noted hnote, judge_of_view hplace]
  unfold State.judgeView
  rw [hwrite]

theorem policyOf_error {d : Descriptor} (h : d.policy = 2#2) : d.policyOf = .error := by
  unfold Descriptor.policyOf
  rw [h]
  rfl

theorem policyOf_stall {d : Descriptor} (h : d.policy = 1#2) : d.policyOf = .stall := by
  unfold Descriptor.policyOf
  rw [h]
  rfl

theorem policyOf_merge {d : Descriptor} (h : d.policy = 0#2) : d.policyOf = .merge := by
  unfold Descriptor.policyOf
  rw [h]
  rfl

/-- R43: policy ERROR refuses a late write. -/
theorem judgeAccess_lateError {s : State} {a : Access} {w : Fin 8} (hwrite : a.write = true)
    (hplace : s.place .p a = .view w) (hlate : (s.window w).commit ≠ .isOpen) (hpolicy : (s.desc w).policy = 2#2) :
    s.judgeAccess .p a = ({ s with holdCount := 0, pPort := writeRefused } : State).record
      { kind := .lateWrite, window := some w, detail := 0x02#8, page := some ((s.desc w).pageAt a.addr) } := by
  rw [judgeAccess_late hwrite hplace hlate (by rw [policyOf_error hpolicy]; decide)]
  unfold State.judgeProducerWrite
  rw [if_pos (isSealed_of_not_open hlate), policyOf_error hpolicy]
  exact takeJudgement_refusedWrite s hwrite _

/-- R44: policy STALL holds a late write, and a SEALED hold that goes on keeps its hold count. -/
theorem judgeAccess_lateStall {s : State} {a : Access} {w : Fin 8} (hwrite : a.write = true)
    (hplace : s.place .p a = .view w) (hlate : (s.window w).commit ≠ .isOpen) (hpolicy : (s.desc w).policy = 1#2) :
    s.judgeAccess .p a = { s with
      holdCount := if s.sealedHold then s.holdCount else 0
      pPort := holding a .sealed w ((s.desc w).pageAt a.addr) } := by
  rw [judgeAccess_late hwrite hplace hlate (by rw [policyOf_stall hpolicy]; decide)]
  unfold State.judgeProducerWrite
  rw [if_pos (isSealed_of_not_open hlate), policyOf_stall hpolicy]
  show State.setPhase (if s.sealedHold then s else s.clearHold .p) .p _ = _
  cases s.sealedHold <;> rfl

/-- R42: the state with LATE_WRITE MERGED recorded, once for an arming. -/
def lateNoted (s : State) (w : Fin 8) (p : Fin 512) : State :=
  if s.noted w then s
  else (s.setNoted w true).record { kind := .lateWrite, window := some w, detail := 0x01#8, page := some p }

theorem lateNoted_eq (s : State) (w : Fin 8) (p : Fin 512) : lateNoted s w p = { s with
    mergeNoted := (lateNoted s w p).mergeNoted, events := (lateNoted s w p).events,
    overrun := (lateNoted s w p).overrun } := by
  unfold lateNoted
  split
  · rfl
  · rw [record_eq]; rfl

theorem noted_lateNoted (s : State) (w : Fin 8) (p : Fin 512) : (lateNoted s w p).noted w = true := by
  unfold lateNoted
  split
  next h => exact h
  · rw [noted_congr (record_mergeNoted _ _) w]; exact noted_setNoted_same s w true

theorem noteMerge_late {s : State} {a : Access} {w : Fin 8} (hwrite : a.write = true)
    (hplace : s.place .p a = .view w) (hlate : (s.window w).commit ≠ .isOpen) (hpolicy : (s.desc w).policyOf = .merge) :
    s.noteMerge .p a = lateNoted s w ((s.desc w).pageAt a.addr) := by
  unfold State.noteMerge lateNoted
  cases hnoted : s.noted w with
  | false =>
    rw [mergeToNote_eq_some.mpr ⟨rfl, hwrite, hplace, isSealed_of_not_open hlate, hpolicy, hnoted, rfl⟩]
    rfl
  | true =>
    cases hnote : s.mergeToNote .p a with
    | none => rfl
    | some wp =>
      obtain ⟨-, -, hview, -, -, hclear, -⟩ := mergeToNote_eq_some.mp hnote
      cases hplace.symm.trans hview
      exact absurd (hclear.symm.trans hnoted) Bool.false_ne_true

/-- R42: policy MERGE judges a late write by the state of its page. -/
theorem judgeAccess_lateMerge {s : State} {a : Access} {w : Fin 8} (hwrite : a.write = true)
    (hplace : s.place .p a = .view w) (hlate : (s.window w).commit ≠ .isOpen) (hpolicy : (s.desc w).policy = 0#2) :
    s.judgeAccess .p a = (lateNoted s w ((s.desc w).pageAt a.addr)).takeJudgement .p a
      (s.judgeWrite w ((s.desc w).pageAt a.addr) a) := by
  unfold State.judgeAccess
  rw [noteMerge_late hwrite hplace hlate (policyOf_merge hpolicy), judge_of_view hplace]
  unfold State.judgeView
  rw [hwrite]
  dsimp only
  unfold State.judgeProducerWrite
  rw [if_pos (isSealed_of_not_open hlate), policyOf_merge hpolicy]

/-- R155: a record reads no window. -/
theorem arrive_setWindow (s : State) (w : Fin 8) (x : Window) (e : Event) :
    (s.setWindow w x).arrive e = (s.arrive e).setWindow w x := by
  cases hmask : maskAllows s.evmask e.kind with
  | false => rw [arrive_masked s e hmask]; exact arrive_masked (s.setWindow w x) e hmask
  | true =>
    by_cases hroom : s.events.length < 32
    · rw [arrive_kept s e hmask hroom]; exact arrive_kept (s.setWindow w x) e hmask hroom
    · have hfull := Nat.le_of_not_lt hroom
      rw [arrive_discarded s e hmask hfull]; exact arrive_discarded (s.setWindow w x) e hmask hfull

/-- A judgement that is taken reads no window. -/
theorem takeJudgement_setWindow (s : State) (w : Fin 8) (x : Window) (a : Access) (j : Judgement) :
    (s.setWindow w x).takeJudgement .p a j = (s.takeJudgement .p a j).setWindow w x := by
  have hpromote : ∀ (t : State) (p : Fin 512), (t.setWindow w x).promote p = (t.promote p).setWindow w x := by
    intro t p
    by_cases h : (t.page p).state = .stale
    · rw [promote_stale t p h]; exact promote_stale (t.setWindow w x) p h
    · rw [promote_other t p h]; exact promote_other (t.setWindow w x) p h
  cases j with
  | go r => rfl
  | hold why v p =>
    cases why with
    | demand => exact hpromote { s with holdCount := 0, pPort := holding a .demand v p } p
    | sealed =>
      show State.setPhase (if s.sealedHold then s.setWindow w x else (s.setWindow w x).clearHold .p) .p _ =
        (State.setPhase (if s.sealedHold then s else s.clearHold .p) .p _).setWindow w x
      cases s.sealedHold <;> rfl
  | refuse e =>
    exact arrive_setWindow ((s.clearHold .p).refuseAccess .p a) w x _

/-- The state in which the late write of window `w` is judged as though the window were OPEN. -/
def asOpen (s : State) (w : Fin 8) (p : Fin 512) : State :=
  (lateNoted s w p).setWindow w { s.window w with commit := .isOpen }

theorem asOpen_window (s : State) (w : Fin 8) (p : Fin 512) (v : Fin 8) :
    (asOpen s w p).window v = if v = w then { s.window w with commit := .isOpen } else s.window v := by
  unfold asOpen
  rw [window_setWindow, window_congr (congrArg State.windows (lateNoted_eq s w p)) v]
  rfl

theorem asOpen_service (s : State) (w : Fin 8) (p : Fin 512) (v : Fin 8) :
    (asOpen s w p).enabled v = s.enabled v ∧ (asOpen s w p).desc v = s.desc v := by
  unfold State.enabled State.desc
  rw [asOpen_window]
  split
  next h => subst h; exact ⟨rfl, rfl⟩
  · exact ⟨rfl, rfl⟩

/-- R42: a late write of policy MERGE goes ahead as though the window were OPEN. -/
theorem judgeAccess_asOpen {s : State} {a : Access} {w : Fin 8} (hwrite : a.write = true)
    (hplace : s.place .p a = .view w) (hlate : (s.window w).commit ≠ .isOpen) (hpolicy : (s.desc w).policy = 0#2) :
    s.judgeAccess .p a =
      { (asOpen s w ((s.desc w).pageAt a.addr)).judgeAccess .p a with windows := s.windows } := by
  have hdesc : (asOpen s w ((s.desc w).pageAt a.addr)).desc w = s.desc w := (asOpen_service s w _ w).2
  have hplaceOpen : (asOpen s w ((s.desc w).pageAt a.addr)).place .p a = .view w :=
    (place_of_sameEnabled (fun v => (asOpen_service s w _ v).1) (fun v _ => (asOpen_service s w _ v).2) .p a).trans hplace
  have hpage : (asOpen s w ((s.desc w).pageAt a.addr)).page ((s.desc w).pageAt a.addr) =
      s.page ((s.desc w).pageAt a.addr) :=
    page_congr (congrArg State.pages (lateNoted_eq s w _)) _
  have hjudge : (asOpen s w ((s.desc w).pageAt a.addr)).judgeWrite w ((s.desc w).pageAt a.addr) a =
      s.judgeWrite w ((s.desc w).pageAt a.addr) a := by
    unfold State.judgeWrite State.served
    rw [hpage, hdesc]
  have hopen : ((asOpen s w ((s.desc w).pageAt a.addr)).window w).commit = .isOpen := by
    rw [asOpen_window, if_pos rfl]
  rw [judgeAccess_openWrite hwrite hplaceOpen hopen, hdesc, hjudge, judgeAccess_lateMerge hwrite hplace hlate hpolicy]
  unfold asOpen
  rw [takeJudgement_setWindow]
  have hwindows := (portsOnly_takeJudgement (lateNoted s w ((s.desc w).pageAt a.addr)) .p a
    (s.judgeWrite w ((s.desc w).pageAt a.addr) a)).windows
  rw [show s.windows = (lateNoted s w ((s.desc w).pageAt a.addr)).windows from
    (congrArg State.windows (lateNoted_eq s w ((s.desc w).pageAt a.addr))).symm, ← hwindows]
  rfl

/-- A note of a late write opens no decision. -/
theorem settled_asOpen {s : State} (h : s.Settled) (w : Fin 8) (p : Fin 512) : (asOpen s w p).Settled := by
  unfold asOpen
  rw [lateNoted_eq]
  exact h

theorem asOpen_ports (s : State) (w : Fin 8) (p : Fin 512) :
    (asOpen s w p).pPort = s.pPort ∧ (asOpen s w p).cPort = s.cPort := by
  unfold asOpen
  rw [lateNoted_eq]
  exact ⟨rfl, rfl⟩

theorem waits_asOpen {s : State} {a : Access} (h : s.waits .p a) (w : Fin 8) (p : Fin 512) :
    (asOpen s w p).waits .p a := by
  have hphase : (asOpen s w p).phaseOf .p = s.phaseOf .p := congrArg PortState.phase (asOpen_ports s w p).1
  unfold State.waits
  rw [hphase]
  exact h

/-- R46: a late write of policy MERGE that waits is judged anew as though the window were OPEN. -/
theorem rejudge_asOpen {s : State} {a : Access} {w : Fin 8} (hwaits : s.waits .p a) (hwrite : a.write = true)
    (hplace : s.place .p a = .view w) (hlate : (s.window w).commit ≠ .isOpen) (hpolicy : (s.desc w).policy = 0#2) :
    let u := (asOpen s w ((s.desc w).pageAt a.addr)).rejudge
    s.rejudge.pPort = u.pPort ∧ s.rejudge.holdCount = u.holdCount ∧ s.rejudge.copyQueue = u.copyQueue ∧
      s.rejudge.noted w = true ∧ (s.cPort.phase = .idle → s.rejudge = { u with windows := s.windows }) := by
  have hopen := waits_asOpen hwaits w ((s.desc w).pageAt a.addr)
  have hjudged := judgeAccess_asOpen hwrite hplace hlate hpolicy
  dsimp only
  rw [rejudge_pPort, rejudge_pPort, rejudge_holdCount, rejudge_holdCount, rejudge_copyQueue, rejudge_copyQueue,
    noted_congr (rejudge_mergeNoted s) w, settle_of_waits hwaits, settle_of_waits hopen]
  refine ⟨by rw [hjudged], by rw [hjudged], by rw [hjudged], ?_, fun hidle => ?_⟩
  · rw [judgeAccess_lateMerge hwrite hplace hlate hpolicy, noted_congr (mergeNoted_takeJudgement _ .p a _) w]
    exact noted_lateNoted s w _
  · rw [rejudge_of_consumer_idle hwaits hidle, hjudged,
      rejudge_of_consumer_idle hopen ((congrArg PortState.phase (asOpen_ports s w _).2).trans hidle)]

/-- Settles O27: a late write is judged by its window's policy, at its acceptance and wherever it waits. -/
theorem lateWriteByPolicy : Obligations.LateWriteByPolicy := by
  unfold Obligations.LateWriteByPolicy
  refine ⟨fun s a w hsettled hidle hform hwrite hplace hlate => ⟨fun h => ?_, fun h => ?_, fun h => ?_⟩,
    fun s a w hwaits hwrite hplace hlate => ⟨fun h => ⟨?_, ?_, fun hidle => ?_⟩, fun h => ⟨?_, ?_, fun hsealed => ?_,
      fun hsealed => ?_⟩, fun h => rejudge_asOpen hwaits hwrite hplace hlate h⟩⟩
  · rw [exec_accessAccepted_judged (x := .p) hsettled hidle hform, judgeAccess_lateError hwrite hplace hlate h]; rfl
  · have hcount : s.sealedHold = false := by rw [sealedHold_eq, show s.pPort.phase = .idle from hidle]; rfl
    rw [exec_accessAccepted_judged (x := .p) hsettled hidle hform, judgeAccess_lateStall hwrite hplace hlate h, hcount]
    rfl
  · refine ⟨(asOpen s w ((s.desc w).pageAt a.addr)).judgeAccess .p a, ?_, ?_⟩
    · exact exec_accessAccepted_judged (x := .p) (settled_asOpen hsettled w _)
        ((congrArg PortState.phase (asOpen_ports s w _).1).trans hidle) hform
    · rw [exec_accessAccepted_judged (x := .p) hsettled hidle hform, ← judgeAccess_asOpen hwrite hplace hlate h]
  · rw [rejudge_pPort, settle_of_waits hwaits, judgeAccess_lateError hwrite hplace hlate h, record_pPort]; rfl
  · rw [rejudge_holdCount, settle_of_waits hwaits, judgeAccess_lateError hwrite hplace hlate h, record_holdCount]
  · rw [rejudge_of_consumer_idle hwaits hidle, judgeAccess_lateError hwrite hplace hlate h]; rfl
  · rw [rejudge_pPort, settle_of_waits hwaits, judgeAccess_lateStall hwrite hplace hlate h]; rfl
  · rw [rejudge_copyQueue, settle_of_waits hwaits, judgeAccess_lateStall hwrite hplace hlate h]
  · rw [rejudge_holdCount, settle_of_waits hwaits, judgeAccess_lateStall hwrite hplace hlate h, hsealed]; rfl
  · rw [rejudge_holdCount, settle_of_waits hwaits, judgeAccess_lateStall hwrite hplace hlate h, hsealed]; rfl

end Sys2Proof.Laws
end

section
/-! The resets. Settles O10, O12 and O13. -/

namespace Sys2Proof.Laws

open Sys2Proof Sys2Proof.Machine

/-! ## Hard reset -/

@[simp] theorem page_hardReset (s : State) (p : Fin 512) : s.hardReset.page p = PageEntry.reset :=
  Vector.getElem_replicate _

@[simp] theorem noted_hardReset (s : State) (w : Fin 8) : s.hardReset.noted w = false :=
  Vector.getElem_replicate _

theorem word_descriptorReset : ∀ k, Descriptor.reset.word k = 0#32 := by decide

/-- R5: a DISABLED window counts no page. -/
theorem pageCount_of_disabled {s : State} {w : Fin 8} (h : (s.window w).enable = .disabled) (st : PageState) :
    s.pageCount w st = 0 := if_pos h

/-- R181: the registers of single fields after reset. -/
theorem words_reset : State.reset.devstatWord = 0#32 ∧ State.reset.devctlWord = 0x00000200#32 ∧
    State.reset.fmodeWord = 0#32 ∧ State.reset.devqueueWord = 0#32 := by decide

/-- R181: the registers after a hard reset. -/
theorem registerValue_hardReset (s : State) (r : RegName) : s.hardReset.registerValue r =
    match r with
    | .deviceId => 0x73100001#32
    | .devctl => 0x00000200#32
    | .evmask => 0x00FFFFFE#32
    | .fpre => 1#32
    | .fper => 65535#32
    | .fndiv => 1#32
    | .groupControl _ => 2#32
    | _ => 0#32 := by
  obtain ⟨hdevstat, hdevctl, hfmode, hdevqueue⟩ := words_reset
  cases r with
  | devstat => exact hdevstat
  | devctl => exact hdevctl
  | fmode => exact hfmode
  | devqueue => exact hdevqueue
  | groupControl g =>
    show fieldAt (s.hardReset.group g).limit.toNat 0 = _
    rw [group_hardReset]; rfl
  | groupStatus g =>
    show (s.hardReset.group g).statusWord = _
    rw [group_hardReset]; rfl
  | descriptor w k =>
    show (s.hardReset.window w).desc.word k = _
    rw [window_hardReset]; exact word_descriptorReset k
  | windowStatus w k =>
    have hcount : ∀ st, s.hardReset.pageCount w st = 0 :=
      pageCount_of_disabled (by rw [window_hardReset]; rfl)
    show s.hardReset.windowWord w k = _
    unfold State.windowWord
    rw [window_hardReset]
    simp only [hcount]
    revert k
    decide
  | pageView p =>
    show (s.hardReset.page p).word = _
    rw [page_hardReset]; rfl
  | _ => rfl

theorem mgmt_hardReset (m : ManagementPort) : m.hardReset =
    { framing := if m.framing = .ready then .ready else .ignoring, out := [], msck := m.msck } := by
  unfold ManagementPort.hardReset
  cases m.framing <;> rfl

theorem msoDriven_hardReset (s : State) : s.hardReset.msoDriven = false := by
  show (s.mgmt.hardReset.framing == .opened || s.mgmt.hardReset.framing == .answered) = false
  rw [mgmt_hardReset]
  dsimp only
  split <;> rfl

/-- Settles O10: a hard reset is a state of constants beside the pins, the lines and the queues. -/
theorem hardResetValues : Obligations.HardResetValues := by
  unfold Obligations.HardResetValues
  intro s
  have hsettled := grantFrame_settled s
  refine ⟨s.settled.hardReset, exec_hardReset s, registerValue_hardReset s.settled, rfl, rfl, rfl,
    noted_hardReset s.settled, rfl, rfl, rfl, rfl, rfl, rfl, rfl, rfl, rfl, rfl, rfl, rfl, rfl,
    msoDriven_hardReset s.settled, ?_, ?_, ?_, hsettled.board, hsettled.pending⟩
  · exact (mgmt_hardReset s.settled.mgmt).trans (by rw [hsettled.mgmt])
  · exact congrArg Filter.hardReset hsettled.fsync
  · exact congrArg Filter.hardReset hsettled.frz

theorem window_reset (w : Fin 8) : State.reset.window w = Window.reset := Vector.getElem_replicate _

theorem page_reset (p : Fin 512) : State.reset.page p = PageEntry.reset := Vector.getElem_replicate _

theorem group_reset (g : Fin 4) : State.reset.group g = Group.reset := Vector.getElem_replicate _

theorem mapOk_reset : MapOk State.reset :=
  mapOk_cleared (fun w => by rw [window_reset]; exact ⟨rfl, rfl, rfl, rfl⟩) page_reset rfl rfl

/-- Settles O12: the state after reset holds nothing that a law could forbid. -/
theorem resetHasTheLaws : Obligations.ResetHasTheLaws where
  events := ⟨Nat.zero_le 32, by decide, fun e he => absurd he List.not_mem_nil⟩
  freeze := ⟨rfl, rfl, fun h => absurd h Bool.false_ne_true⟩
  groups := fun g => by rw [group_reset]; decide
  timer := timerOk_reset
  ports := ⟨fun x _ => by cases x <;> rfl, nofun, fun _ => rfl, by decide⟩
  arbiter := arbiterOk_freed rfl (fun x _ _ => by cases x <;> nofun) rfl (Nat.zero_le 8)
  windows := mapOk_reset.windows
  pages := pagesOk_of_mapOk mapOk_reset engineOk_reset
  judged := fun x => by cases x <;> trivial
  demand := demandOk_of_none nofun
  flip := flipOk_of_none rfl
  mgmt := mgmtOk_quiet false

/-! ## Engine reset -/

/-- R30: with no window ENABLED every access is plain. -/
theorem place_of_none_enabled {s : State} (h : ∀ w, s.enabled w = false) (x : Port) (a : Access) :
    s.place x a = .plain := by
  have hno : ∀ w, s.enabled w ≠ true := fun w hw => absurd ((h w).symm.trans hw) Bool.false_ne_true
  rcases place_cases s x a with ⟨w, m, -, hw, -⟩ | ⟨w, -, hw, -⟩ | ⟨w, k, -, hw, -⟩ | ⟨hplain, -⟩
  · exact absurd hw (hno w)
  · exact absurd hw (hno w)
  · exact absurd hw (hno w)
  · exact hplain

/-- The state of an engine reset before the waiting accesses are judged anew. -/
def engineCleared (s : State) : State :=
  { s.dropHeld with
    windows := vecMap Window.engineReset s.dropHeld.windows
    pages := Vector.replicate 512 PageEntry.reset
    groups := vecMap Group.engineReset s.dropHeld.groups
    pendingFlip := none
    holdCount := 0
    mergeNoted := Vector.replicate 8 false
    copyQueue := []
    engine := Engine.reset
    freed := false
    streak := 0
    timer := s.dropHeld.timer.engineReset
    events := []
    overrun := false }

theorem engineReset_eq (s : State) : s.engineReset = (engineCleared s).rejudge := rfl

/-- R24: an engine reset touches the P-port Handler alone before the waiting accesses are judged anew. -/
theorem portsOnly_dropHeld (s : State) : PortsOnly s s.dropHeld := by
  unfold State.dropHeld
  split
  · exact portsOnly_setPort s .p _
  · exact PortsOnly.refl s

theorem window_engineCleared (s : State) (w : Fin 8) :
    (engineCleared s).window w = { Window.reset with desc := s.desc w } := by
  show (vecMap Window.engineReset s.dropHeld.windows)[w.val] = _
  rw [vecMap_getElem, (portsOnly_dropHeld s).windows]
  rfl

theorem group_engineCleared (s : State) (g : Fin 4) :
    (engineCleared s).group g = { state := .idle, count := 0#4, limit := (s.group g).limit } := by
  show (vecMap Group.engineReset s.dropHeld.groups)[g.val] = _
  rw [vecMap_getElem, (portsOnly_dropHeld s).groups]
  rfl

theorem place_engineCleared (s : State) (x : Port) (a : Access) : (engineCleared s).place x a = .plain :=
  place_of_none_enabled (fun w => by unfold State.enabled; rw [window_engineCleared]; rfl) x a

theorem port_dropHeld {s : State} {x : Port} (h : x = .p → ∀ a why w p, s.phaseOf .p ≠ .held a why w p) :
    s.dropHeld.port x = s.port x := by
  unfold State.dropHeld
  split
  next a why w p hheld =>
    cases x with
    | p => exact absurd hheld (h rfl a why w p)
    | c => rfl
  · rfl

/-- R24: what an engine reset does to each handler. -/
theorem port_engineReset (s : State) (x : Port) :
    match s.phaseOf x with
    | .idle => s.engineReset.port x = s.port x
    | .pending a _ => s.engineReset.port x = { phase := .pending a { cls := .plain, addr := a.addr }, resp := none }
    | .held a _ _ _ =>
      x = .p → s.engineReset.port x = { phase := .idle, resp := some { resp := .error, rdata := readBeats a [] } }
    | .issued _ _ => s.engineReset.port x = s.port x := by
  have hrejudge : s.engineReset.port x = ((engineCleared s).settle x).port x := rejudge_port _ x
  have hcleared : (engineCleared s).port x = s.dropHeld.port x := by cases x <;> rfl
  have hdrop : (∀ a why w p, s.phaseOf x ≠ .held a why w p) → (engineCleared s).port x = s.port x := fun h =>
    hcleared.trans (port_dropHeld fun hx => hx ▸ h)
  have hphase : ∀ v, (engineCleared s).port x = v → (engineCleared s).phaseOf x = v.phase := fun v h =>
    congrArg PortState.phase h
  split
  next hidle =>
    have hport := hdrop fun _ _ _ _ h => by rw [hidle] at h; cases h
    rw [hrejudge, settle_idle _ x ((hphase _ hport).trans hidle), hport]
  next a r hpending =>
    have hport := hdrop fun _ _ _ _ h => by rw [hpending] at h; cases h
    rw [hrejudge, settle_of_waits (.inl ⟨r, (hphase _ hport).trans hpending⟩),
      judgeAccess_plain (place_engineCleared s x a)]
    exact port_setPort_same _ x _
  next a why w p hheld =>
    intro hx
    subst hx
    have hdropped : s.dropHeld = s.refuseAccess .p a := by
      unfold State.dropHeld
      rw [show s.pPort.phase = .held a why w p from hheld]
    have hport : (engineCleared s).port .p = refused a := by
      rw [hcleared, hdropped, refuseAccess_eq]; rfl
    rw [hrejudge, settle_idle _ .p (hphase _ hport), hport]
    rfl
  next a r hissued =>
    have hport := hdrop fun _ _ _ _ h => by rw [hissued] at h; cases h
    rw [hrejudge, settle_issued _ x ((hphase _ hport).trans hissued), hport]

/-- R31: a judgement anew of a plain access writes its handler alone. -/
theorem settle_of_plain {s : State} {x : Port} (h : ∀ a, s.place x a = .plain) (hcount : s.holdCount = 0) :
    ∃ v, s.settle x = s.setPort x v := by
  have hclear : s.clearHold x = s := by
    cases x with
    | p => show { s with holdCount := 0 } = s; rw [← hcount]
    | c => rfl
  have hjudged : ∀ a, s.waits x a → ∃ v, s.settle x = s.setPort x v := fun a hwaits =>
    ⟨waitingAt .plain a, by rw [settle_of_waits hwaits, judgeAccess_plain (h a), hclear]⟩
  have hself : s = s.setPort x (s.port x) := by cases x <;> rfl
  cases hphase : s.phaseOf x with
  | idle => exact ⟨s.port x, (settle_idle s x hphase).trans hself⟩
  | pending a r => exact hjudged a (.inl ⟨r, hphase⟩)
  | held a why w p => exact hjudged a (.inr ⟨why, w, p, hphase⟩)
  | issued a r => exact ⟨s.port x, (settle_issued s x hphase).trans hself⟩

/-- R31: a plain access makes no record. -/
theorem recordsNow_of_plain {s : State} {x : Port} (h : ∀ a, s.place x a = .plain) : s.recordsNow x = false := by
  have hmakes : ∀ a, s.makesRecord x a = false := by
    intro a
    have hnote : s.mergeToNote x a = none := mergeToNote_of_not_view fun w => by rw [h a]; nofun
    unfold State.makesRecord State.judge
    rw [hnote, h a]
    rfl
  unfold State.recordsNow
  split
  · rfl
  · exact hmakes _
  · exact hmakes _
  · rfl

/-- R31: where every access is plain, judging anew writes the two handlers alone. -/
theorem rejudge_of_plain {s : State} (h : ∀ x a, s.place x a = .plain) (hcount : s.holdCount = 0) :
    ∃ v w, s.rejudge = { s with pPort := v, cPort := w } := by
  obtain ⟨v, hv⟩ := settle_of_plain (h .p) hcount
  have hplace : ∀ a, (s.setPort .p v).place .c a = .plain := fun a =>
    (place_congr (setPort_windows s .p v) .c a).trans (h .c a)
  obtain ⟨w, hw⟩ := settle_of_plain (s := s.setPort .p v) hplace hcount
  exact ⟨v, w, by rw [rejudge_of_no_record s .p (recordsNow_of_plain (h .p)), hv, hw]; rfl⟩

/-- Settles O13: an engine reset is `engineCleared`, in which every access that waits is plain. -/
theorem engineResetKeepsConfiguration : Obligations.EngineResetKeepsConfiguration := by
  unfold Obligations.EngineResetKeepsConfiguration
  intro s arg hready hsettled
  have hdrop := portsOnly_dropHeld s
  obtain ⟨v, w, hrejudged⟩ := rejudge_of_plain (place_engineCleared s) (s := engineCleared s) rfl
  have hports := port_engineReset s
  rw [engineReset_eq, hrejudged] at hports
  refine ⟨({ engineCleared s with pPort := v, cPort := w } : State).answer [0x01#8], ?_, window_engineCleared s,
    fun p => Vector.getElem_replicate _, group_engineCleared s, rfl, rfl, rfl, rfl, rfl, rfl, hdrop.mport, rfl, rfl,
    hdrop.pointer, congrArg Timer.engineReset hdrop.timer, hdrop.fsync, hdrop.frz, hdrop.freeze, rfl, rfl, hdrop.evmask,
    hdrop.irqEnable, hdrop.holdMax, rfl, fun w => Vector.getElem_replicate _, rfl, fun x => ?_⟩
  · rw [← hrejudged, ← engineReset_eq]
    exact event_answered State.engineResetAction hready hsettled
  · have hport := hports x
    cases x <;> exact hport

end Sys2Proof.Laws
end

section
/-! The Event Queue's records and the framing of transactions. Settles O21 and O22. -/

namespace Sys2Proof.Laws

open Sys2Proof Sys2Proof.Machine

/-! ## Records -/

theorem append_bytes24 (v : BitVec 24) :
    v.extractLsb' 16 8 ++ v.extractLsb' 8 8 ++ v.extractLsb' 0 8 = v := by
  apply BitVec.eq_of_getLsbD_eq
  intro i hi
  simp only [BitVec.getLsbD_append, BitVec.getLsbD_extractLsb']
  by_cases h : i < 8
  · simp [h]
  · by_cases k : i - 8 < 8
    · simp [h, k, show 8 + (i - 8) = i by omega]
    · simp [h, k, show i - 8 - 8 < 8 by omega, show 16 + (i - 8 - 8) = i by omega]

/-- R180: the bytes of a record field by field. -/
theorem bytes_fields (e : Event) : ∃ b0 b1 b2 b3 b4 b5 b6 b7 b8 b9 b10 b11 b12 b13 b14 b15,
    e.bytes = [b0, b1, b2, b3, b4, b5, b6, b7, b8, b9, b10, b11, b12, b13, b14, b15] ∧ b0 = e.kind.code ∧
      b1 = (match e.window with | none => 0xFF#8 | some w => BitVec.ofNat 8 w.val) ∧
      b2 = (match e.group with | none => 0xFF#8 | some g => BitVec.ofNat 8 g.val) ∧
      b3 = e.detail ∧ b4 ++ b5 = e.frame ∧
      (b6 ++ b7 : BitVec 16) = (match e.page with | none => 0xFFFF#16 | some p => BitVec.ofNat 16 p.val) ∧
      b8 ++ b9 ++ b10 ++ b11 = e.tag ∧ b12 ++ b13 ++ b14 = e.phase ∧ b15 = e.count := by
  refine ⟨_, _, _, _, _, _, _, _, _, _, _, _, _, _, _, _, rfl, rfl, ?_, ?_, rfl, append_bytesOf16 _,
    (append_bytesOf16 _).trans ?_, append_bytesOf32 _, append_bytes24 _, rfl⟩
  · cases e.window <;> rfl
  · cases e.group <;> rfl
  · cases e.page <;> rfl

theorem event_popped {s : State} (hready : s.portReady) (hsettled : s.Settled) :
    exec .popEvent s = .next { s.pop.1 with mgmt := .executed s.pop.2 1 } := by
  show s.event (fun t => t.transactAt 1 State.pop) = _
  rw [event_settled _ hsettled, transactAt_ready 1 s State.pop hready]

theorem pop_cons {s : State} {e : Event} {rest : List Event} (h : s.events = e :: rest) :
    s.pop = ({ s with events := rest }, 0x01#8 :: e.bytes) := by
  unfold State.pop
  rw [h]
  rfl

theorem pop_nil {s : State} (h : s.events = []) : s.pop = (s, 0x01#8 :: s.noneRecord.bytes) := by
  unfold State.pop
  rw [h]
  rfl

/-- R180: the bytes of a record of kind NONE. -/
theorem noneRecord_bytes (s : State) : s.noneRecord.bytes =
    [0x00#8, 0xFF#8, 0xFF#8, 0x00#8] ++ bytesOf16 s.timer.frame ++ [0xFF#8, 0xFF#8] ++ List.replicate 8 0x00#8 := by
  have hpage : (0xFFFF#16).extractLsb' 8 8 = 0xFF#8 ∧ (0xFFFF#16).extractLsb' 0 8 = 0xFF#8 := by decide
  have htag : (0#32).extractLsb' 24 8 = 0#8 ∧ (0#32).extractLsb' 16 8 = 0#8 ∧ (0#32).extractLsb' 8 8 = 0#8 ∧
      (0#32).extractLsb' 0 8 = 0#8 := by decide
  have hphase : (0#24).extractLsb' 16 8 = 0#8 ∧ (0#24).extractLsb' 8 8 = 0#8 ∧ (0#24).extractLsb' 0 8 = 0#8 := by decide
  unfold Event.bytes
  show [_, _, _, _, _, _, (0xFFFF#16).extractLsb' 8 8, (0xFFFF#16).extractLsb' 0 8, (0#32).extractLsb' 24 8,
    (0#32).extractLsb' 16 8, (0#32).extractLsb' 8 8, (0#32).extractLsb' 0 8, (0#24).extractLsb' 16 8,
    (0#24).extractLsb' 8 8, (0#24).extractLsb' 0 8, _] = _
  obtain ⟨hp1, hp2⟩ := hpage
  obtain ⟨ht1, ht2, ht3, ht4⟩ := htag
  obtain ⟨hf1, hf2, hf3⟩ := hphase
  rw [hp1, hp2, ht1, ht2, ht3, ht4, hf1, hf2, hf3]
  rfl

/-- R176: a pop's answer, whose status byte has been returned. -/
theorem executed_pop (out : List Byte) : ManagementPort.executed (0x01#8 :: out) 1 =
    { framing := .answered, out := 0x01#8 :: out, index := 1, mso := true, msck := true } := by
  have hbit : (0x01#8).getLsbD 0 = true := by decide
  unfold ManagementPort.executed
  rw [← hbit]
  rfl

/-- Settles O21: the three outcomes of a record that arrives, and the two of a pop. -/
theorem recordsArriveAndArePopped : Obligations.RecordsArriveAndArePopped := by
  unfold Obligations.RecordsArriveAndArePopped
  refine ⟨fun s e => ⟨arrive_masked s e, arrive_kept s e, arrive_discarded s e, rfl⟩,
    fun e rest s hready hsettled hevents => ?_, fun s hready hsettled hevents => ?_, bytes_fields,
    fun k => by cases k <;> rfl⟩
  · rw [event_popped hready hsettled, pop_cons hevents, executed_pop]; rfl
  · rw [event_popped hready hsettled, pop_nil hevents, noneRecord_bytes, executed_pop]; rfl

/-! ## A port that is not ready -/

/-- R168: a port that is not ready ignores a transaction. -/
theorem event_unready {s : State} (n : Nat) (body : State → State × List Byte) (hready : ¬s.portReady)
    (hsettled : s.Settled) : s.event (fun u => u.transactAt n body) = .next s := by
  rw [event_settled _ hsettled, transactAt_unready n s body hready]

theorem event_unready_status {s : State} (body : State → State × Status) (hready : ¬s.portReady)
    (hsettled : s.Settled) : s.event (fun u => u.transactStatus body) = .next s := by
  rw [event_settled _ hsettled, transactStatus_unready s body hready]

theorem event_unready_known {s : State} (known : List Byte) (code : Byte) (hready : ¬s.portReady)
    (hsettled : s.Settled) :
    s.event (fun u => if known.contains code then u else u.transactStatus fun t => (t, .badCommand)) = .next s := by
  rw [event_settled _ hsettled, transactStatus_unready s _ hready]
  split <;> rfl

theorem exec_unready {c : Instr} {s : State} (hsettled : s.Settled) (hbytes : (transactionBytes c).isSome = true)
    (hcut : ∀ bs, c ≠ .transactionCutShort bs) (hready : ¬s.portReady) : exec c s = .next s := by
  cases c with
  | transactionCutShort bs => exact absurd rfl (hcut bs)
  | badCommand code => exact event_unready_known commandBytes code hready hsettled
  | unknownAction code arg => exact event_unready_known actionCodes code hready hsettled
  | popEvent => exact event_unready 1 _ hready hsettled
  | accessAccepted => cases hbytes
  | grant => cases hbytes
  | memoryResponse => cases hbytes
  | tick => cases hbytes
  | periodEnd => cases hbytes
  | synthesizedBoundary => cases hbytes
  | fsyncEdge => cases hbytes
  | fsyncFall => cases hbytes
  | holdTimeout => cases hbytes
  | fstbPulseEnd => cases hbytes
  | frzRise => cases hbytes
  | frzFall => cases hbytes
  | hardReset => cases hbytes
  | mcsnRisingEdge => cases hbytes
  | readReg n => exact event_unready 0 _ hready hsettled
  | _ => exact event_unready_status _ hready hsettled

/-! ## What MSO shows -/

theorem msoDriven_iff (s : State) : s.msoDriven = true ↔ s.mgmt.framing = .opened ∨ s.mgmt.framing = .answered := by
  unfold State.msoDriven
  rw [Bool.or_eq_true, beq_iff_eq, beq_iff_eq]

theorem mso_undriven {s : State} (h : s.mgmt.framing = .ready ∨ s.mgmt.framing = .ignoring) :
    s.msoLevel = none ∧ s.msoByte = none := by
  have hno : ¬s.msoDriven = true := fun hdriven => by
    rcases (msoDriven_iff s).mp hdriven with k | k <;> rcases h with h | h <;> cases h.symm.trans k
  exact ⟨if_neg hno, if_neg hno⟩

theorem msoByte_opened {s : State} (h : s.mgmt.framing = .opened) : s.msoByte = some s.mgmt.openByte := by
  unfold State.msoByte
  rw [if_pos ((msoDriven_iff s).mpr (.inl h))]
  unfold ManagementPort.returned
  rw [h]

theorem msoByte_answered {s : State} (h : s.mgmt.framing = .answered) :
    s.msoByte = some (s.mgmt.out.getD s.mgmt.index 0x00#8) := by
  unfold State.msoByte
  rw [if_pos ((msoDriven_iff s).mpr (.inr h))]
  unfold ManagementPort.returned
  rw [h]

/-! ## The port, sample by sample -/

/-- R168: what MCSn does to the port. -/
theorem select_eq (m : ManagementPort) (mcsn : Bool) : m.select mcsn =
    if mcsn then { framing := .ready, out := [], msck := m.msck }
    else if m.framing = .ready then { framing := .opened, out := [], msck := m.msck } else m := by
  unfold ManagementPort.select
  cases mcsn with
  | true => rfl
  | false => cases h : m.framing <;> rfl

theorem select_msck (m : ManagementPort) (mcsn : Bool) : (m.select mcsn).msck = m.msck := by
  rw [select_eq]
  split <;> [rfl; split <;> rfl]

/-- The port agrees with MCSn once it has sampled it. -/
theorem select_framing (m : ManagementPort) (mcsn : Bool) : mcsn = true ↔ (m.select mcsn).framing = .ready := by
  rw [select_eq]
  cases mcsn with
  | true => exact ⟨fun _ => rfl, fun _ => rfl⟩
  | false =>
    by_cases h : m.framing = .ready
    · simp [h]
    · simp [h]

/-- A level that the port agrees with changes nothing while MCSn is low. -/
theorem select_low {m : ManagementPort} (h : m.framing ≠ .ready) : m.select false = m := by
  rw [select_eq]
  exact (if_neg Bool.false_ne_true).trans (if_neg h)

theorem select_select (m : ManagementPort) (mcsn : Bool) : (m.select mcsn).select mcsn = m.select mcsn := by
  cases mcsn with
  | true => rfl
  | false => exact select_low fun h => absurd ((select_framing m false).mpr h) Bool.false_ne_true

theorem rise_msck (m : ManagementPort) (msi : Bool) : (m.rise msi).msck = m.msck := by
  unfold ManagementPort.rise
  split <;> [rfl; (split <;> rfl); (split <;> rfl); rfl]

theorem rises_level (m : ManagementPort) {msck : Bool} (h : msck = m.msck) : m.rises msck = false := by
  unfold ManagementPort.rises
  rw [h]
  cases m.msck <;> rfl

theorem rises_edge {m : ManagementPort} (h : m.msck = false) : m.rises true = true := by
  unfold ManagementPort.rises
  rw [h]
  rfl

/-- A sample that leaves MSCK alone shows MCSn alone. -/
theorem samplePort_steady {s : State} {l : BoardLevels} (h : l.msck = s.mgmt.msck) :
    s.samplePort l = { s with mgmt := s.mgmt.select l.mcsn } := by
  rw [samplePort_level s l (rises_level _ h), h, ← select_msck s.mgmt l.mcsn, clock_level]

/-- Where MCSn changes nothing the edge of MSCK is sampled alone. -/
theorem samplePort_agreeing {s : State} {l : BoardLevels} (h : l.mcsn = true ↔ s.mgmt.framing = .ready) :
    s.samplePort l = s.selectThenClock l := by
  have hsame : (l.mcsn != (s.mgmt.framing == .ready)) = false := by
    by_cases hready : s.mgmt.framing = .ready
    · rw [h.mpr hready, hready]; rfl
    · rw [Bool.eq_false_iff.mpr fun hm => hready (h.mp hm), beq_eq_false_iff_ne.mpr hready]; rfl
  unfold State.samplePort
  rw [hsame, Bool.and_false]
  rfl

theorem samplePort_disagreeing {s : State} {l : BoardLevels} (hrise : s.mgmt.rises l.msck = true)
    (h : ¬(l.mcsn = true ↔ s.mgmt.framing = .ready)) :
    let r : State := { s with freeCount := s.freeCount + 1 }
    s.samplePort l = r.selectThenClock l ∨ s.samplePort l = r.clockThenSelect l := by
  have hchange : (l.mcsn != (s.mgmt.framing == .ready)) = true := by
    refine bne_iff_ne.mpr fun heq => h ?_
    rw [heq, beq_iff_eq]
  unfold State.samplePort
  rw [hrise, hchange]
  dsimp only
  rw [if_pos (show (true && true) = true from rfl)]
  split
  · exact .inl rfl
  · exact .inr rfl

/-- R169: a rising edge in a transaction that is open. -/
theorem rise_opened {m : ManagementPort} (h : m.framing = .opened) (msi : Bool) :
    (m.bit < 7 → m.rise msi = { m with shift := m.shifted msi, bit := m.bit + 1 }) ∧
    (m.bit = 7 → m.rise msi =
      { m with shift := m.shifted msi, bit := 0, received := m.received ++ [m.shifted msi] }) := by
  unfold ManagementPort.rise
  rw [h]
  exact ⟨fun hbit => if_neg (Nat.not_le_of_lt hbit), fun hbit => if_pos (Nat.le_of_eq hbit.symm)⟩

theorem rise_answered {m : ManagementPort} (h : m.framing = .answered) (msi : Bool) :
    (m.bit < 7 → m.rise msi = { m with bit := m.bit + 1 }) ∧
    (m.bit = 7 → m.rise msi = { m with bit := 0, index := m.index + 1 }) := by
  unfold ManagementPort.rise
  rw [h]
  exact ⟨fun hbit => if_neg (Nat.not_le_of_lt hbit), fun hbit => if_pos (Nat.le_of_eq hbit.symm)⟩

theorem rise_undriven {m : ManagementPort} (h : m.framing = .ready ∨ m.framing = .ignoring) (msi : Bool) :
    m.rise msi = m := by
  unfold ManagementPort.rise
  rcases h with h | h <;> rw [h]

/-- R169: no edge but one in an open transaction completes a command, and there the eighth of a byte. -/
theorem completes_other {m : ManagementPort} (h : m.framing ≠ .opened ∨ m.bit < 7) (msck msi : Bool) :
    m.completes msck msi = none := by
  unfold ManagementPort.completes
  split
  · rfl
  next hopened =>
    have hbit : ¬7 ≤ m.bit := Nat.not_le_of_lt (h.resolve_left fun k => k hopened)
    rw [decide_eq_false hbit, Bool.and_false]
    rfl
  · rfl
  · rfl

theorem completes_opened {m : ManagementPort} (h : m.framing = .opened) (hbit : m.bit = 7) (hmsck : m.msck = false)
    (msi : Bool) : m.completes true msi = completed (m.received ++ [m.shifted msi]) := by
  unfold ManagementPort.completes
  rw [h, rises_edge hmsck, decide_eq_true (Nat.le_of_eq hbit.symm)]
  rfl

theorem selectThenClock_eq (s : State) (l : BoardLevels) : s.selectThenClock l = { s with
    mgmt := (s.mgmt.select l.mcsn).clock l.msck l.msi,
    pending := ((s.mgmt.select l.mcsn).completes l.msck l.msi).toList ++ s.pending } := rfl

/-- A rising edge of MSCK where the port agrees with MCSn. -/
theorem samplePort_rise {s : State} {l : BoardLevels} (hmsck : s.mgmt.msck = false) (hl : l.msck = true)
    (h : l.mcsn = true ↔ s.mgmt.framing = .ready) : s.samplePort l = { s with
      mgmt := ({ s.mgmt.select l.mcsn with msck := true } : ManagementPort).rise l.msi
      pending := ((s.mgmt.select l.mcsn).completes true l.msi).toList ++ s.pending } := by
  rw [samplePort_agreeing h, selectThenClock_eq, hl, clock_rise _ _ ((select_msck _ _).trans hmsck)]

/-- The same while MCSn is low. -/
theorem samplePort_rise_low {s : State} {l : BoardLevels} (hmsck : s.mgmt.msck = false) (hl : l.msck = true)
    (h : l.mcsn = true ↔ s.mgmt.framing = .ready) (hlow : s.mgmt.framing ≠ .ready) : s.samplePort l = { s with
      mgmt := ({ s.mgmt with msck := true } : ManagementPort).rise l.msi
      pending := (s.mgmt.completes true l.msi).toList ++ s.pending } := by
  have hmcsn : l.mcsn = false := Bool.eq_false_iff.mpr fun hm => hlow (h.mp hm)
  rw [samplePort_rise hmsck hl h, hmcsn, select_low hlow]

/-- R170: a falling edge of MSCK. -/
theorem fall_eq (m : ManagementPort) : m.fall =
    if m.framing = .opened ∨ m.framing = .answered then { m with mso := m.returned.getLsbD (7 - m.bit) } else m := by
  unfold ManagementPort.fall
  cases h : m.framing <;> rfl

theorem samplePort_fall {s : State} {l : BoardLevels} (hmsck : s.mgmt.msck = true) (hl : l.msck = false) :
    let selected := s.mgmt.select l.mcsn
    s.samplePort l = { s with mgmt :=
      if selected.framing = .opened ∨ selected.framing = .answered then
        { selected with msck := false, mso := selected.returned.getLsbD (7 - selected.bit) }
      else { selected with msck := false } } := by
  have hlevel : s.mgmt.rises l.msck = false := by unfold ManagementPort.rises; rw [hl]; rfl
  dsimp only
  rw [samplePort_level s l hlevel, hl, clock_fall _ _ ((select_msck _ _).trans hmsck), fall_eq]
  rfl

/-- MCSn first: its sample, and then that of the edge. -/
theorem selectThenClock_split (s : State) {l : BoardLevels} (hmsck : s.mgmt.msck = false) :
    s.selectThenClock l = (s.samplePort { l with msck := false }).samplePort l := by
  have hagrees : l.mcsn = true ↔ (s.samplePort { l with msck := false }).mgmt.framing = .ready := by
    rw [samplePort_steady (l := { l with msck := false }) hmsck.symm]
    exact select_framing _ _
  rw [samplePort_agreeing hagrees, samplePort_steady (l := { l with msck := false }) hmsck.symm, selectThenClock_eq,
    selectThenClock_eq]
  dsimp only
  rw [select_select]

/-- The edge first: its sample under the old MCSn, then MCSn's change, or its command before the deselection. -/
theorem clockThenSelect_split {s : State} {l : BoardLevels} (hmsck : s.mgmt.msck = false) (hl : l.msck = true)
    (h : ¬(l.mcsn = true ↔ s.mgmt.framing = .ready)) :
    let edge := s.samplePort { l with mcsn := !l.mcsn }
    (edge.pending = s.pending ∧ s.clockThenSelect l = edge.samplePort l) ∨
    (∃ c, edge.pending = c :: s.pending ∧
      s.clockThenSelect l = { edge with pending := c :: .mcsnRisingEdge :: s.pending }) := by
  obtain ⟨fsync, frz, mcsn, msck, msi⟩ := l
  subst hl
  dsimp only at h ⊢
  unfold State.clockThenSelect
  dsimp only
  rw [clock_rise _ _ hmsck]
  cases mcsn with
  | true =>
    have hlow : s.mgmt.framing ≠ .ready := fun k => h ⟨fun _ => k, fun _ => rfl⟩
    have hedge := samplePort_rise_low (l := ⟨fsync, frz, !true, true, msi⟩) hmsck rfl
      ⟨fun k => absurd k Bool.false_ne_true, fun k => absurd k hlow⟩ hlow
    cases hc : s.mgmt.completes true msi with
    | none =>
      rw [hc] at hedge
      refine .inl ⟨(congrArg State.pending hedge).trans rfl, ?_⟩
      rw [samplePort_steady (l := ⟨fsync, frz, true, true, msi⟩) ?_, hedge]
      · rfl
      · rw [hedge]; exact (rise_msck { s.mgmt with msck := true } msi).symm
    | some c =>
      rw [hc] at hedge
      exact .inr ⟨c, (congrArg State.pending hedge).trans rfl, by rw [hedge]⟩
  | false =>
    have hready : s.mgmt.framing = .ready := by
      by_contra hlow
      exact h ⟨fun k => absurd k Bool.false_ne_true, fun k => absurd k hlow⟩
    have hedge := samplePort_rise (l := ⟨fsync, frz, !false, true, msi⟩) hmsck rfl ⟨fun _ => hready, fun _ => rfl⟩
    refine .inl ⟨(congrArg State.pending hedge).trans rfl, ?_⟩
    rw [completes_other (.inl (by rw [hready]; decide)),
      samplePort_steady (l := ⟨fsync, frz, false, true, msi⟩) ?_, hedge,
      rise_undriven (m := { s.mgmt with msck := true }) (.inl hready)]
    · have hselect : ({ s.mgmt with msck := true } : ManagementPort).select false =
          { framing := .opened, out := [], msck := true } := by
        rw [select_eq]; exact (if_neg Bool.false_ne_true).trans (if_pos hready)
      dsimp only
      rw [hselect]
      rfl
    · rw [hedge]; exact (rise_msck { s.mgmt.select true with msck := true } msi).symm

/-- Settles O22: a transaction at a port that is not ready, the byte at MSO, and the lines sample by sample. -/
theorem transactionsAreFramed : Obligations.TransactionsAreFramed := by
  unfold Obligations.TransactionsAreFramed
  refine ⟨fun c s hsettled hbytes hcut hready => exec_unready hsettled hbytes hcut hready, fun s hsettled => ?_,
    fun s => ⟨mso_undriven, fun hdriven => if_pos ((msoDriven_iff s).mpr hdriven), fun hopened hpop => ?_,
      fun hopened hother => ?_, fun hanswered => ⟨fun hindex => ?_, fun hindex => ?_⟩⟩, fun s l => ⟨?_, ?_, ?_, ?_⟩⟩
  · have hidle := event_settled (fun t : State => { t with mgmt := t.mgmt.idle }) hsettled
    exact ⟨hidle, fun bs => hidle⟩
  · rw [msoByte_opened hopened]; exact congrArg some (if_pos hpop)
  · rw [msoByte_opened hopened]; exact congrArg some (if_neg hother)
  · rw [msoByte_answered hanswered, List.getD_eq_getElem _ _ hindex]
  · rw [msoByte_answered hanswered, List.getD_eq_default _ _ hindex]
  · intro hmsck
    rw [samplePort_steady hmsck, select_eq]
  · intro hmsck hl
    rw [samplePort_fall hmsck hl, select_eq]
  · intro hmsck hl hholds
    refine ⟨fun hundriven => ?_, fun hopened hbit => ?_, fun hopened hbit hcut => ?_, fun hopened hbit hwhole => ?_,
      fun hanswered hbit => ?_, fun hanswered hbit => ?_⟩
    · have hselected : (s.mgmt.select l.mcsn).framing = .ready ∨ (s.mgmt.select l.mcsn).framing = .ignoring := by
        rcases hundriven with hready | hignoring
        · exact .inl ((select_framing _ _).mp (hholds.mpr hready))
        · have hmcsn : l.mcsn = false := Bool.eq_false_iff.mpr fun k => by cases (hholds.mp k).symm.trans hignoring
          rw [hmcsn, select_low (by rw [hignoring]; decide)]
          exact .inr hignoring
      have hclosed : (s.mgmt.select l.mcsn).framing ≠ .opened := fun k => by
        rcases hselected with h | h <;> cases h.symm.trans k
      rw [samplePort_rise hmsck hl hholds, completes_other (.inl hclosed),
        rise_undriven (m := { s.mgmt.select l.mcsn with msck := true }) hselected, select_eq]
      rfl
    · rw [samplePort_rise_low hmsck hl hholds (by rw [hopened]; decide), completes_other (.inr hbit),
        (rise_opened (m := { s.mgmt with msck := true }) hopened _).1 hbit]
      rfl
    · obtain ⟨bs, hbs⟩ := hcut
      rw [samplePort_rise_low hmsck hl hholds (by rw [hopened]; decide), completes_opened hopened hbit hmsck,
        completed_cutShort (s.mgmt.received ++ [s.mgmt.shifted l.msi]) bs hbs, (rise_opened (m := { s.mgmt with msck := true }) hopened _).2 hbit]
      rfl
    · rw [samplePort_rise_low hmsck hl hholds (by rw [hopened]; decide), completes_opened hopened hbit hmsck,
        completed_some (s.mgmt.received ++ [s.mgmt.shifted l.msi]) hwhole, (rise_opened (m := { s.mgmt with msck := true }) hopened _).2 hbit]
      rfl
    · rw [samplePort_rise_low hmsck hl hholds (by rw [hanswered]; decide),
        completes_other (.inl (by rw [hanswered]; decide)),
        (rise_answered (m := { s.mgmt with msck := true }) hanswered _).1 hbit]
      rfl
    · rw [samplePort_rise_low hmsck hl hholds (by rw [hanswered]; decide),
        completes_other (.inl (by rw [hanswered]; decide)),
        (rise_answered (m := { s.mgmt with msck := true }) hanswered _).2 hbit]
      rfl
  · intro hmsck hl hchange
    have hrise : s.mgmt.rises l.msck = true := hl ▸ rises_edge hmsck
    dsimp only
    rcases samplePort_disagreeing hrise hchange with hfirst | hfirst
    · exact .inl (hfirst.trans (selectThenClock_split { s with freeCount := s.freeCount + 1 } hmsck))
    · rw [hfirst]
      exact .inr (clockThenSelect_split (s := { s with freeCount := s.freeCount + 1 }) hmsck hl hchange)

end Sys2Proof.Laws
end

section
/-! Judging the waiting accesses anew: what it leaves alone, and that it changes nothing of a state already judged.
Settles O31 and O32. -/

namespace Sys2Proof.Laws

open Sys2Proof Sys2Proof.Machine

/-! ## The Copy Queue -/

/-- Judging brings at most one STALE page to the head of the Copy Queue. -/
structure QueueGrown (s t : State) : Prop where
  kept : ∀ p, p ∈ s.copyQueue → p ∈ t.copyQueue
  stale : ∀ p, p ∈ t.copyQueue → p ∈ s.copyQueue ∨ (s.page p).state = .stale

theorem queueGrown_of_eq {s t : State} (h : t.copyQueue = s.copyQueue) : QueueGrown s t :=
  ⟨fun _ hp => h.symm ▸ hp, fun _ hp => .inl (h ▸ hp)⟩

theorem queueGrown_promote (s : State) (p : Fin 512) : QueueGrown s (s.promote p) := by
  by_cases h : (s.page p).state = .stale
  · rw [promote_stale s p h]
    refine ⟨fun q hq => ?_, fun q hq => ?_⟩
    · by_cases hqp : q = p
      · exact hqp ▸ List.mem_cons_self
      · exact List.mem_cons_of_mem p (List.mem_filter.mpr ⟨hq, decide_eq_true hqp⟩)
    · rcases List.mem_cons.mp hq with rfl | hq
      · exact .inr h
      · exact .inl (List.mem_filter.mp hq).1
  · rw [promote_other s p h]
    exact queueGrown_of_eq rfl

theorem queueGrown_takeJudgement (s : State) (a : Access) (j : Judgement) : QueueGrown s (s.takeJudgement .p a j) := by
  cases j with
  | go r => exact queueGrown_of_eq rfl
  | hold why w p =>
    cases why with
    | demand =>
      have h := queueGrown_promote ({ s with holdCount := 0, pPort := holding a .demand w p } : State) p
      exact ⟨h.kept, h.stale⟩
    | sealed =>
      refine queueGrown_of_eq ?_
      show (State.setPhase (if s.sealedHold then s else s.clearHold .p) .p _).copyQueue = _
      split <;> rfl
  | refuse e => exact queueGrown_of_eq (record_copyQueue _ _)

theorem noteMerge_copyQueue (s : State) (x : Port) (a : Access) : (s.noteMerge x a).copyQueue = s.copyQueue := by
  unfold State.noteMerge
  split
  · rw [record_copyQueue]; rfl
  · rfl

theorem queueGrown_judgeProducer (s : State) (a : Access) : QueueGrown s (s.judgeAccess .p a) := by
  have h := queueGrown_takeJudgement (s.noteMerge .p a) a (s.judge .p a)
  refine ⟨fun p hp => h.kept p (by rw [noteMerge_copyQueue]; exact hp), fun p hp => ?_⟩
  have hor := h.stale p hp
  rw [noteMerge_copyQueue, page_congr (portsOnly_noteMerge s .p a).pages p] at hor
  exact hor

theorem queueGrown_settleProducer (s : State) : QueueGrown s (s.settle .p) := by
  cases h : s.phaseOf .p with
  | idle => rw [settle_idle s .p h]; exact queueGrown_of_eq rfl
  | pending a r => rw [settle_of_waits (.inl ⟨r, h⟩)]; exact queueGrown_judgeProducer s a
  | held a why w p => rw [settle_of_waits (.inr ⟨why, w, p, h⟩)]; exact queueGrown_judgeProducer s a
  | issued a r => rw [settle_issued s .p h]; exact queueGrown_of_eq rfl

/-- Settles O31: a judgement anew writes the handlers alone, and the Copy Queue where a demand does. -/
theorem rejudgementFrame : Obligations.RejudgementFrame := by
  unfold Obligations.RejudgementFrame
  intro s
  have honly := portsOnly_rejudge s
  have hqueue := queueGrown_settleProducer s
  refine ⟨⟨honly.windows, honly.pages, honly.groups, honly.pendingFlip, honly.holdMax, honly.engine, honly.mport,
    honly.streak, honly.pointer, honly.timer, honly.fsync, honly.frz, honly.freeze, honly.evmask, honly.irqEnable,
    honly.mgmt, honly.board, honly.pending⟩, fun x h => ?_, fun x a r h => ?_, fun p hp => ?_, fun p hp => ?_⟩
  · rw [rejudge_port, settle_idle s x h]
  · rw [rejudge_port, settle_issued s x h]
  · rw [rejudge_copyQueue]; exact hqueue.kept p hp
  · rw [rejudge_copyQueue] at hp; exact hqueue.stale p hp

/-! ## A state already judged -/

theorem setPort_self {s : State} {x : Port} {v : PortState} (h : s.port x = v) : s.setPort x v = s := by
  subst h
  cases x <;> rfl

/-- R28: the handler of a waiting access shows no response. -/
theorem port_of_phase {s : State} (h : s.PortsOk) {x : Port} {ph : Phase} (hphase : s.phaseOf x = ph) (hne : ph ≠ .idle) :
    s.port x = { phase := ph, resp := none } := by
  have hresp := h.noResponse x (hphase ▸ hne)
  rw [← hphase, ← hresp]
  rfl

theorem clearHold_self {s : State} {x : Port} (h : x = .p → s.holdCount = 0) : s.clearHold x = s := by
  cases x with
  | p => show { s with holdCount := 0 } = s; rw [← h rfl]
  | c => rfl

/-- R119: a page that is already at the head of the Copy Queue stays where it is. -/
theorem promote_head {s : State} {p : Fin 512} (hhead : (s.page p).state = .stale → s.copyQueue.head? = some p)
    (honce : s.copyQueue.Nodup) : s.promote p = s := by
  by_cases h : (s.page p).state = .stale
  · obtain ⟨rest, hqueue⟩ := List.head?_eq_some_iff.mp (hhead h)
    rw [hqueue] at honce
    have hrest : rest.filter (· ≠ p) = rest :=
      List.filter_eq_self.mpr fun q hq => decide_eq_true fun e => (List.nodup_cons.mp honce).1 (e ▸ hq)
    have hfilter : p :: s.copyQueue.filter (· ≠ p) = s.copyQueue := by
      rw [hqueue, List.filter_cons_of_neg (by simp), hrest]
    rw [promote_stale s p h, hfilter]
  · exact promote_other s p h

/-- R29: an access whose judgement stands is judged again to no effect. -/
theorem settle_of_stands {s : State} {x : Port} (hstands : Stands s x) (hports : s.PortsOk) (hdemand : s.DemandOk)
    (honce : s.copyQueue.Nodup) : s.settle x = s := by
  cases hphase : s.phaseOf x with
  | idle => exact settle_idle s x hphase
  | issued a r => exact settle_issued s x hphase
  | pending a r =>
    obtain ⟨hjudge, hnote⟩ := stands_pending hstands hphase
    have hclear : s.clearHold x = s := clearHold_self fun hx => hports.count (by
      subst hx; rw [sealedHold_eq, show s.pPort.phase = .pending a r from hphase]; rfl)
    rw [settle_of_waits (.inl ⟨r, hphase⟩), judgeAccess_of_not_noted hnote, hjudge]
    show (s.clearHold x).setPort x { phase := .pending a r, resp := none } = s
    rw [hclear]
    exact setPort_self (port_of_phase hports hphase nofun)
  | held a why w p =>
    obtain ⟨hjudge, hnote⟩ := stands_held hstands hphase
    have hport := port_of_phase hports hphase nofun
    rw [settle_of_waits (.inr ⟨why, w, p, hphase⟩), judgeAccess_of_not_noted hnote, hjudge]
    cases x with
    | c => exact absurd hphase (hports.consumer a why w p)
    | p =>
      have hheld : s.pPort.phase = .held a why w p := hphase
      cases why with
      | demand =>
        have hclear : s.clearHold .p = s := clearHold_self fun _ => hports.count (by rw [sealedHold_eq, hheld]; rfl)
        show ((s.clearHold .p).setPort .p { phase := .held a .demand w p, resp := none }).promote p = s
        rw [hclear, setPort_self hport]
        exact promote_head (hdemand p ((demandPage_eq_some s p).mpr ⟨a, w, hheld⟩)) honce
      | sealed =>
        have hsealed : s.sealedHold = true := by rw [sealedHold_eq, hheld]; rfl
        show State.setPort (if s.sealedHold then s else s.clearHold .p) .p _ = s
        rw [hsealed]
        exact setPort_self hport

theorem recordsNow_of_stands {s : State} {x : Port} (h : Stands s x) : s.recordsNow x = false := by
  unfold State.recordsNow State.makesRecord
  split
  · rfl
  next a r hphase =>
    obtain ⟨hjudge, hnote⟩ := stands_pending h hphase
    rw [hnote, hjudge]; rfl
  next a why w p hphase =>
    obtain ⟨hjudge, hnote⟩ := stands_held h hphase
    rw [hnote, hjudge]; rfl
  · rfl

/-- Settles O32: neither handler's judgement changes anything, and neither makes a record. -/
theorem rejudgementOfAJudgedStateIsIdle : Obligations.RejudgementOfAJudgedStateIsIdle := by
  unfold Obligations.RejudgementOfAJudgedStateIsIdle
  intro s hjudged hports hdemand honce
  have hstands := (judgedOk_iff s).mp hjudged
  rw [rejudge_of_no_record s .p (recordsNow_of_stands (hstands .p)), settle_of_stands (hstands .p) hports hdemand honce,
    settle_of_stands (hstands .c) hports hdemand honce]

end Sys2Proof.Laws
end

section
/-! A boundary at the Commit Controller. Settles O43, O44, O45 and O60. -/

namespace Sys2Proof.Laws

open Sys2Proof Sys2Proof.Machine

/-! ## Readiness and outcome -/

theorem isMember_iff (s : State) (g : Fin 4) (w : Fin 8) :
    s.isMember g w = true ↔ (s.window w).enable = .enabled ∧ (s.desc w).group.toNat = g.val := by
  unfold State.isMember
  rw [Bool.and_eq_true, beq_iff_eq, enabled_iff]

theorem flipPendingFor_false (s : State) (g : Fin 4) :
    s.flipPendingFor g = false ↔ ∀ f, s.pendingFlip = some f → f.group ≠ g := by
  unfold State.flipPendingFor
  cases h : s.pendingFlip with
  | none => exact ⟨fun _ _ => nofun, fun _ => rfl⟩
  | some f =>
    exact ⟨fun hf k hk => Option.some.inj hk ▸ beq_eq_false_iff_ne.mp hf, fun hf => beq_eq_false_iff_ne.mpr (hf f rfl)⟩

/-- R85: a group is ready when it has members, all of them ARMED, and no flip of its own pending. -/
theorem groupReady_iff (s : State) (g : Fin 4) : s.groupReady g = true ↔
    (∃ w, s.isMember g w = true) ∧ (∀ w, s.isMember g w = true → (s.window w).commit = .armed) ∧
      ∀ f, s.pendingFlip = some f → f.group ≠ g := by
  have hmembers : (s.members g).isEmpty = false ↔ ∃ w, s.isMember g w = true := by
    rw [List.isEmpty_eq_false_iff_exists_mem]
    exact exists_congr fun w => mem_members s g w
  unfold State.groupReady
  rw [Bool.and_eq_true, Bool.and_eq_true, Bool.not_eq_true', Bool.not_eq_true', hmembers, flipPendingFor_false,
    List.all_eq_true, and_assoc]
  simp only [mem_members, beq_iff_eq]

theorem groupOutcome_not_ready {s : State} {g : Fin 4} (h : s.groupReady g = false) :
    s.groupOutcome g = match (s.group g).state with
      | .idle => .nothing
      | .deferred => .endDeferral := by
  unfold State.groupOutcome
  rw [h]
  rfl

theorem groupOutcome_skip {s : State} {g : Fin 4} (h : s.groupReady g = true) (hlatch : s.freeze.latch = true) :
    s.groupOutcome g = .skip := by
  unfold State.groupOutcome
  rw [h, hlatch]
  rfl

theorem groupOutcome_ready {s : State} {g : Fin 4} (h : s.groupReady g = true) (hlatch : s.freeze.latch = false) :
    s.groupOutcome g = if (s.openMembers g).isEmpty then .commit
      else if (s.group g).count.toNat < (s.group g).limit.toNat then .defer else .force := by
  unfold State.groupOutcome
  rw [h, hlatch]
  rfl

theorem openMembers_isEmpty (s : State) (g : Fin 4) :
    (s.openMembers g).isEmpty = true ↔ ∀ w, s.isMember g w = true → (s.window w).bracket ≠ .isOpen := by
  rw [List.isEmpty_iff, List.eq_nil_iff_forall_not_mem]
  simp only [mem_openMembers, not_and, ne_eq]

/-- Settles O43: membership, readiness, and the rows of the outcome table. -/
theorem groupOutcomeTable : Obligations.GroupOutcomeTable := by
  unfold Obligations.GroupOutcomeTable
  intro s g
  refine ⟨isMember_iff s g, groupReady_iff s g, fun hready hidle => ?_, fun hready hdeferred => ?_, groupOutcome_skip,
    fun hready hlatch => ⟨fun hclosed => ?_, fun w hmember hopen => ⟨fun hlt => ?_, fun hle => ?_⟩⟩⟩
  · rw [groupOutcome_not_ready hready, hidle]
  · rw [groupOutcome_not_ready hready, hdeferred]
  · rw [groupOutcome_ready hready hlatch, if_pos ((openMembers_isEmpty s g).mpr hclosed)]
  · have hsome : ¬(s.openMembers g).isEmpty = true := fun h => (openMembers_isEmpty s g).mp h w hmember hopen
    rw [groupOutcome_ready hready hlatch, if_neg hsome, if_pos hlt]
  · have hsome : ¬(s.openMembers g).isEmpty = true := fun h => (openMembers_isEmpty s g).mp h w hmember hopen
    rw [groupOutcome_ready hready hlatch, if_neg hsome, if_neg (Nat.not_lt_of_le hle)]

/-! ## The windows and the pending flip after a boundary -/

theorem takesCommit_iff (s : State) (g : Fin 4) :
    takesCommit s g = true ↔ s.groupOutcome g = .commit ∨ s.groupOutcome g = .force := by
  unfold takesCommit
  rw [Bool.or_eq_true, beq_iff_eq, beq_iff_eq]

/-- R100: a flip waits exactly while the access ISSUED is of the view of a window of its set. -/
theorem issuedInto_iff (s : State) (l : List (Fin 8)) : s.issuedInto l = true ↔
    ∃ x a r w p bank, s.phaseOf x = .issued a r ∧ r.cls = .view w p bank ∧ w ∈ l := by
  have hphase : ∀ ph : Phase, (match ph with
      | .issued _ { cls := .view w _ _, .. } => l.contains w
      | _ => false) = true ↔ ∃ a r w p bank, ph = .issued a r ∧ r.cls = .view w p bank ∧ w ∈ l := by
    intro ph
    constructor
    · intro h
      split at h
      next a w p bank addr => exact ⟨a, _, w, p, bank, rfl, rfl, List.contains_iff_mem.mp h⟩
      · cases h
    · rintro ⟨a, ⟨cls, addr⟩, w, p, bank, rfl, rfl, hw⟩
      exact List.contains_iff_mem.mpr hw
  have hor : s.issuedInto l = true ↔ _ ∨ _ := Bool.or_eq_true_iff.trans (or_congr (hphase s.pPort.phase) (hphase s.cPort.phase))
  rw [hor]
  constructor
  · rintro (h | h)
    · exact ⟨.p, h⟩
    · exact ⟨.c, h⟩
  · rintro ⟨x, h⟩
    cases x with
    | p => exact .inl h
    | c => exact .inr h

theorem flipWaits_iff (s : State) (g : Fin 4) : s.FlipWaits g ↔ s.issuedInto (s.members g) = true := by
  rw [issuedInto_iff]
  simp only [mem_members]
  exact Iff.rfl

theorem flipsNow_iff (s : State) (g : Fin 4) :
    flipsNow s g = true ↔ (s.groupOutcome g = .commit ∨ s.groupOutcome g = .force) ∧ ¬s.FlipWaits g := by
  unfold flipsNow
  rw [Bool.and_eq_true, takesCommit_iff, flipWaits_iff, Bool.not_eq_true', Bool.not_eq_true]

/-- R90: a forced commit revokes the bracket of the window. -/
def Revoked (s : State) (w : Fin 8) : Prop :=
  (∃ g, s.isMember g w = true ∧ s.groupOutcome g = .force) ∧ (s.window w).bracket = .isOpen

/-- R101: the window flips within the boundary. -/
def Flips (s : State) (w : Fin 8) : Prop :=
  ∃ g, s.isMember g w = true ∧ (s.groupOutcome g = .commit ∨ s.groupOutcome g = .force) ∧ ¬s.FlipWaits g

theorem promoted_eq (x : Window) :
    x.promoted = { x with commit := if x.commit = .armedLate then .armed else x.commit } := by
  unfold Window.promoted
  split <;> rfl

theorem revoked_iff {s : State} {g : Fin 4} {w : Fin 8} (h : s.isMember g w = true) :
    Revoked s w ↔ s.groupOutcome g = .force ∧ (s.window w).bracket = .isOpen :=
  and_congr_left' ⟨fun ⟨_, hmember, hforce⟩ => isMember_unique h hmember ▸ hforce, fun hforce => ⟨g, h, hforce⟩⟩

theorem flips_iff {s : State} {g : Fin 4} {w : Fin 8} (h : s.isMember g w = true) :
    Flips s w ↔ flipsNow s g = true := by
  rw [flipsNow_iff]
  exact ⟨fun ⟨_, hmember, hnow⟩ => isMember_unique h hmember ▸ hnow, fun hnow => ⟨g, h, hnow⟩⟩

theorem memberBefore_eq {s : State} {g : Fin 4} {w : Fin 8} (h : s.isMember g w = true) :
    (Revoked s w → memberBefore s g w = { s.window w with bracket := .revoked }) ∧
    (¬Revoked s w → memberBefore s g w = s.window w) := by
  rw [revoked_iff h]
  exact ⟨fun hr => if_pos hr, fun hr => if_neg hr⟩

/-- R90, R92, R101: each window after a boundary. -/
theorem judgeGroups_windows (s : State) (w : Fin 8) :
    (Revoked s w → (s.judgeGroups.window w).bracket = .revoked) ∧
    (¬Revoked s w → (s.judgeGroups.window w).bracket = (s.window w).bracket) ∧
    (Flips s w → s.judgeGroups.window w = { s.window w with
      commit := .isOpen, committedTag := (s.window w).armedTag, lastCommitFrame := s.timer.frame,
      bracket := (s.judgeGroups.window w).bracket }) ∧
    (¬Flips s w → s.judgeGroups.window w = { s.window w with
      commit := if (s.window w).commit = .armedLate then .armed else (s.window w).commit,
      bracket := (s.judgeGroups.window w).bracket }) := by
  by_cases hmember : ∃ g, s.isMember g w = true
  · obtain ⟨g, hg⟩ := hmember
    obtain ⟨hrevoked, hkept⟩ := memberBefore_eq hg
    rw [judgeGroups_member s g w hg, memberAfter_eq, promoted_eq, flips_iff hg]
    by_cases hr : Revoked s w
    · rw [hrevoked hr]
      refine ⟨fun _ => ?_, fun h => absurd hr h, fun h => ?_, fun h => ?_⟩
      · split <;> rfl
      · rw [if_pos h]; rfl
      · rw [if_neg h]
    · rw [hkept hr]
      refine ⟨fun h => absurd h hr, fun _ => ?_, fun h => ?_, fun h => ?_⟩
      · split <;> rfl
      · rw [if_pos h]; rfl
      · rw [if_neg h]
  · have hnone : ∀ g, s.isMember g w = false := fun g => Bool.eq_false_iff.mpr fun h => hmember ⟨g, h⟩
    rw [judgeGroups_other s w hnone, promoted_eq]
    exact ⟨fun ⟨⟨g, hg, _⟩, _⟩ => absurd ⟨g, hg⟩ hmember, fun _ => rfl, fun ⟨g, hg, _⟩ => absurd ⟨g, hg⟩ hmember,
      fun _ => rfl⟩

theorem foldl_choice_none {α β : Type} (c : α → Bool) (v : α → β) (l : List α) (start : Option β)
    (h : ∀ k, c k = false) : l.foldl (fun f k => if c k then some (v k) else f) start = start := by
  induction l with
  | nil => rfl
  | cons k l ih => rw [List.foldl_cons, h k]; exact ih

theorem foldl_choice_one {α β : Type} {c : α → Bool} {v : α → β} {g : α} (hg : c g = true)
    (hone : ∀ k, c k = true → k = g) (l : List α) (start : Option β) (h : g ∈ l ∨ start = some (v g)) :
    l.foldl (fun f k => if c k then some (v k) else f) start = some (v g) := by
  induction l generalizing start with
  | nil => exact h.resolve_left List.not_mem_nil
  | cons k l ih =>
    rw [List.foldl_cons]
    apply ih
    by_cases hk : c k = true
    · exact .inr ((if_pos hk).trans (congrArg (fun i => some (v i)) (hone k hk)))
    · have hne : g ≠ k := fun e => hk (e ▸ hg)
      exact h.imp (fun hmem => (List.mem_cons.mp hmem).resolve_left hne) fun hstart => (if_neg hk).trans hstart

/-- R133: one access at the most is ISSUED by the port handlers. -/
theorem issued_unique {s : State} (h : s.ArbiterOk) {x y : Port} {a b : Access} {r t : Resolution}
    (hx : s.phaseOf x = .issued a r) (hy : s.phaseOf y = .issued b t) : r = t := by
  have hp : ∀ a r, s.phaseOf .p = .issued a r → s.mport = .busy .producer { a with addr := r.addr } := fun a r hp =>
    (h.producer _).mpr ⟨a, r, hp, rfl⟩
  have hc : ∀ a r, s.phaseOf .c = .issued a r → s.mport = .busy .consumer { a with addr := r.addr } := fun a r hc =>
    (h.consumer _).mpr ⟨a, r, hc, rfl⟩
  cases x <;> cases y
  · exact (Phase.issued.inj (hx.symm.trans hy)).2
  · cases (hp a r hx).symm.trans (hc b t hy)
  · cases (hc a r hx).symm.trans (hp b t hy)
  · exact (Phase.issued.inj (hx.symm.trans hy)).2

/-- R103: one group's flip at the most waits. -/
theorem flipWaits_unique {s : State} (h : s.ArbiterOk) {g k : Fin 4} (hg : s.FlipWaits g) (hk : s.FlipWaits k) :
    k = g := by
  obtain ⟨x, a, r, w, p, bank, hissued, hview, hmember⟩ := hg
  obtain ⟨y, b, t, v, q, bk, hissued', hview', hmember'⟩ := hk
  cases issued_unique h hissued hissued'
  cases hview.symm.trans hview'
  exact isMember_unique hmember' hmember

theorem judgeGroups_pendingFlip_some {s : State} (h : s.ArbiterOk) {g : Fin 4}
    (htakes : s.groupOutcome g = .commit ∨ s.groupOutcome g = .force) (hwaits : s.FlipWaits g) :
    s.judgeGroups.pendingFlip = some (waitingCommit s g) := by
  rw [judgeGroups_pendingFlip]
  refine foldl_choice_one (c := fun k => takesCommit s k && s.issuedInto (s.members k)) ?_ (fun k hk => ?_) _ _
    (.inl (mem_allGroups g))
  · exact Bool.and_eq_true_iff.mpr ⟨(takesCommit_iff s g).mpr htakes, (flipWaits_iff s g).mp hwaits⟩
  · exact flipWaits_unique h hwaits ((flipWaits_iff s k).mpr (Bool.and_eq_true_iff.mp hk).2)

theorem judgeGroups_pendingFlip_same {s : State}
    (h : ∀ g, s.groupOutcome g = .commit ∨ s.groupOutcome g = .force → ¬s.FlipWaits g) :
    s.judgeGroups.pendingFlip = s.pendingFlip := by
  rw [judgeGroups_pendingFlip]
  refine foldl_choice_none (fun k => takesCommit s k && s.issuedInto (s.members k)) _ _ _ fun k => ?_
  refine Bool.eq_false_iff.mpr fun hk => ?_
  obtain ⟨htakes, hissued⟩ := Bool.and_eq_true_iff.mp hk
  exact h k ((takesCommit_iff s k).mp htakes) ((flipWaits_iff s k).mpr hissued)

/-- R14: the DIRTY pages of the windows that flip change sides. -/
theorem judgeGroups_pages (s : State) (p : Fin 512) :
    ((s.page p).state = .dirty ∧ (∃ w, Flips s w ∧ (s.desc w).inRun p = true) →
      s.judgeGroups.page p = (s.page p).flipped) ∧
    (¬((s.page p).state = .dirty ∧ ∃ w, Flips s w ∧ (s.desc w).inRun p = true) →
      s.judgeGroups.page p = s.page p) := by
  have hflips : (∃ g, flipsNow s g = true ∧ ∃ w, s.isMember g w = true ∧ (s.desc w).inRun p = true) ↔
      ∃ w, Flips s w ∧ (s.desc w).inRun p = true :=
    ⟨fun ⟨g, hnow, w, hmember, hrun⟩ => ⟨w, (flips_iff hmember).mpr hnow, hrun⟩,
      fun ⟨w, ⟨g, hmember, hnow⟩, hrun⟩ => ⟨g, (flipsNow_iff s g).mpr hnow, w, hmember, hrun⟩⟩
  rw [judgeGroups_page]
  exact ⟨fun h => if_pos (And.imp_right hflips.mpr h), fun h => if_neg fun k => h (And.imp_right hflips.mp k)⟩

/-! ## The BOUNDARY action -/

/-- R80: the state in which a boundary is delivered: the timer has begun its new frame, and its records stand. -/
def atBoundary (s : State) (sync : SyncState) (es : List Event) (overrun : Bool) : State :=
  { s with timer := s.timer.begin sync, events := es, overrun := overrun }

theorem boundaryWith_eq (s : State) (sync : SyncState) (mark : Option EventKind) :
    ∃ es overrun, s.boundaryWith sync mark = (atBoundary s sync es overrun).deliver := by
  have hframe : ∀ u : State, ∃ es overrun, u.recordFrame = { u with events := es, overrun := overrun } := by
    intro u
    rw [recordFrame_eq]
    split
    · exact ⟨_, _, record_eq u _⟩
    · exact ⟨u.events, u.overrun, rfl⟩
  unfold State.boundaryWith
  cases mark with
  | none =>
    obtain ⟨es, overrun, h⟩ := hframe (s.setTimer (s.timer.begin sync))
    exact ⟨es, overrun, congrArg State.deliver h⟩
  | some k =>
    obtain ⟨es, overrun, h⟩ := hframe ((s.setTimer (s.timer.begin sync)).record { kind := k })
    refine ⟨es, overrun, congrArg State.deliver (h.trans ?_)⟩
    rw [record_eq]
    rfl

/-- R81: the BOUNDARY action. -/
theorem exec_boundary {s : State} (arg : Byte) (hready : s.portReady) (hsettled : s.Settled) :
    ∃ es overrun, exec (.boundary arg) s =
      .next ((atBoundary s s.timer.sync es overrun).deliver.answer [0x01#8]) := by
  obtain ⟨es, overrun, h⟩ := boundaryWith_eq s s.timer.sync none
  exact ⟨es, overrun, (event_answered State.boundaryAction hready hsettled).trans
    (congrArg (fun t : State => Host.Outcome.next (t.answer [0x01#8])) h)⟩

theorem window_deliver (s : State) (w : Fin 8) : s.deliver.window w = s.judgeGroups.window w :=
  window_congr (deliver_windows s) w

theorem page_deliver (s : State) (p : Fin 512) : s.deliver.page p = s.judgeGroups.page p :=
  page_congr (deliver_pages s) p

theorem group_deliver (s : State) (g : Fin 4) : s.deliver.group g = groupAfter s g :=
  (group_congr (deliver_groups s) g).trans (judgeGroups_group s g)

/-- Settles O44: the outcomes read nothing that the new frame writes, and each field follows from them. -/
theorem boundaryAtTheCommitController : Obligations.BoundaryAtTheCommitController := by
  unfold Obligations.BoundaryAtTheCommitController
  intro s arg hready hsettled harbiter
  obtain ⟨es, overrun, hexec⟩ := exec_boundary arg hready hsettled
  have hv : (atBoundary s s.timer.sync es overrun).ArbiterOk := arbiterOk_of_same harbiter
  refine ⟨_, hexec, fun g => group_deliver (atBoundary s s.timer.sync es overrun) g, fun w => ?_, fun p => ?_,
    fun g htakes hwaits => ?_, fun hnone => ?_⟩
  · have hwindow := judgeGroups_windows (atBoundary s s.timer.sync es overrun) w
    rw [← window_deliver] at hwindow
    exact hwindow
  · have hpage := judgeGroups_pages (atBoundary s s.timer.sync es overrun) p
    rw [← page_deliver] at hpage
    exact hpage
  · exact (deliver_pendingFlip _).trans (judgeGroups_pendingFlip_some hv htakes hwaits)
  · exact (deliver_pendingFlip _).trans (judgeGroups_pendingFlip_same hnone)

/-- R88: with the latch set no group's outcome takes, defers or forces its commit. -/
theorem groupOutcome_frozen {s : State} (h : s.freeze.latch = true) (g : Fin 4) :
    s.groupOutcome g ≠ .commit ∧ s.groupOutcome g ≠ .force := by
  cases hready : s.groupReady g with
  | true => rw [groupOutcome_skip hready h]; decide
  | false =>
    rw [groupOutcome_not_ready hready]
    split <;> decide

/-- Settles O45: no outcome of a frozen boundary takes a commit. -/
theorem frozenBoundaryTakesNoCommit : Obligations.FrozenBoundaryTakesNoCommit := by
  unfold Obligations.FrozenBoundaryTakesNoCommit
  intro s arg hready hsettled hlatch
  obtain ⟨es, overrun, hexec⟩ := exec_boundary arg hready hsettled
  have hfrozen := groupOutcome_frozen (s := atBoundary s s.timer.sync es overrun) hlatch
  have hflips : ∀ w, ¬Flips (atBoundary s s.timer.sync es overrun) w := fun w ⟨g, _, htakes, _⟩ =>
    htakes.elim (hfrozen g).1 (hfrozen g).2
  refine ⟨_, hexec, fun p => ?_, ?_, fun g hg => ?_, fun w => ?_⟩
  · exact (page_deliver _ p).trans ((judgeGroups_pages _ p).2 fun ⟨_, w, hw, _⟩ => hflips w hw)
  · exact (deliver_pendingFlip _).trans
      (judgeGroups_pendingFlip_same fun g htakes => absurd htakes (not_or.mpr (hfrozen g)))
  · refine (group_deliver _ g).trans ?_
    unfold groupAfter
    rw [groupOutcome_skip (s := atBoundary s s.timer.sync es overrun) hg hlatch]
    rfl
  · obtain ⟨-, hbracket, -, hwindow⟩ := judgeGroups_windows (atBoundary s s.timer.sync es overrun) w
    have hkept := hbracket fun ⟨⟨g, _, hforce⟩, _⟩ => (hfrozen g).2 hforce
    have hsame := (window_deliver (atBoundary s s.timer.sync es overrun) w).trans (hwindow (hflips w))
    have hanswer : ∀ u : State, (u.answer [0x01#8]).window w = u.window w := fun u => rfl
    rw [hanswer, hsame]
    refine ⟨hkept, rfl, rfl, fun hnotOpen => ?_⟩
    have hcommit : ∀ c : CommitState, c ≠ .isOpen → (if c = .armedLate then .armed else c) = .armed := by
      intro c hc
      cases c with
      | isOpen => exact absurd rfl hc
      | armedLate => rfl
      | armed => rfl
    exact hcommit _ hnotOpen

/-! ## The records of a boundary -/

/-- R180: the bit of a window in a bitmap of members. -/
theorem memberBitmap_getLsbD (ws : List (Fin 8)) (w : Fin 8) : (memberBitmap ws).getLsbD w.val = ws.contains w := by
  have hbit : ∀ v u : Fin 8, (1#8 <<< v.val).getLsbD u.val = (u == v) := by decide
  have hfold : ∀ (l : List (Fin 8)) (b : Byte),
      (l.foldl (fun b v => b ||| (1#8 <<< v.val)) b).getLsbD w.val = (b.getLsbD w.val || l.contains w) := by
    intro l
    induction l with
    | nil => intro b; exact (Bool.or_false _).symm
    | cons v l ih =>
      intro b
      rw [List.foldl_cons, ih, BitVec.getLsbD_or, hbit, List.contains_cons, Bool.or_assoc]
  unfold memberBitmap
  rw [hfold]
  simp

/-- Settles O60: the model's boundary is written out in this order. -/
theorem boundaryRecordsInOrder : Obligations.BoundaryRecordsInOrder := by
  unfold Obligations.BoundaryRecordsInOrder
  refine ⟨fun s => ?_, memberBitmap_getLsbD, mem_openMembers⟩
  have houtcome : (fun (t : State) (g : Fin 4) => t.applyOutcome g (s.groupOutcome g)) = fun (t : State) (g : Fin 4) =>
      let x := t.group g
      match s.groupOutcome g with
      | .nothing => t
      | .endDeferral => t.setGroup g { x with state := .idle, count := 0#4 }
      | .skip => t.record { kind := .freezeSkip, group := some g, count := x.count.setWidth 8 }
      | .commit => t.takeCommit g .boundary
      | .defer => (t.setGroup g { x with state := .deferred, count := x.count + 1#4 }).record
          { kind := .commitDeferred, group := some g, count := (x.count + 1#4).setWidth 8 }
      | .force => (((t.openMembers g).foldl (fun u w => u.setWindow w { u.window w with bracket := .revoked }) t).record
          { kind := .commitForced, group := some g, detail := memberBitmap (t.openMembers g),
            count := x.count.setWidth 8 }).takeCommit g .forced := by
    funext t g
    cases s.groupOutcome g <;> rfl
  unfold State.deliver State.judgeGroups
  rw [houtcome]
  rfl

end Sys2Proof.Laws
end

section
/-! A commit that is taken, and its flip. Settles O46. -/

namespace Sys2Proof.Laws

open Sys2Proof Sys2Proof.Machine

theorem foldl_flipWindow_eq (ws : List (Fin 8)) (s : State) : ws.foldl State.flipWindow s = { s with
    windows := (ws.foldl State.flipWindow s).windows, pages := (ws.foldl State.flipWindow s).pages,
    copyQueue := (ws.foldl State.flipWindow s).copyQueue } := by
  induction ws generalizing s with
  | nil => rfl
  | cons w ws ih => rw [List.foldl_cons]; exact ih (s.flipWindow w)

/-- The windows of a flip have runs apart. -/
def RunsApart (s : State) (ws : List (Fin 8)) : Prop :=
  ws.Pairwise fun w v => ∀ p, p ∈ (s.desc v).run → (s.desc w).inRun p = false

/-- R101: the flip of one window leaves the DIRTY pages of the others as they are. -/
theorem pagesIn_flipWindow {s : State} {w v : Fin 8} (h : ∀ p, p ∈ (s.desc v).run → (s.desc w).inRun p = false) :
    (s.flipWindow w).pagesIn ((s.flipWindow w).desc v) .dirty = s.pagesIn (s.desc v) .dirty := by
  rw [desc_flipWindow]
  unfold State.pagesIn
  refine List.filter_congr fun p hp => ?_
  rw [flipWindow_page, if_neg fun hflip => Bool.false_ne_true ((h p hp).symm.trans hflip.1)]

/-- R101: the DIRTY pages join the tail of the Copy Queue, windows and pages ascending. -/
theorem foldl_flipWindow_copyQueue {ws : List (Fin 8)} {s : State} (h : RunsApart s ws) :
    (ws.foldl State.flipWindow s).copyQueue = s.copyQueue ++ ws.flatMap fun w => s.pagesIn (s.desc w) .dirty := by
  induction ws generalizing s with
  | nil => exact (List.append_nil _).symm
  | cons w ws ih =>
    obtain ⟨hfirst, hrest⟩ := List.pairwise_cons.mp h
    have hnext : RunsApart (s.flipWindow w) ws := by
      unfold RunsApart
      simp only [desc_flipWindow]
      exact hrest
    have hpages : (ws.flatMap fun v => (s.flipWindow w).pagesIn ((s.flipWindow w).desc v) .dirty) =
        ws.flatMap fun v => s.pagesIn (s.desc v) .dirty := by
      rw [List.flatMap_def, List.flatMap_def]
      exact congrArg List.flatten (List.map_congr_left fun v hv => pagesIn_flipWindow (hfirst v hv))
    rw [List.foldl_cons, ih hnext, hpages, flipWindow_copyQueue, List.flatMap_cons, List.append_assoc]

/-- R7: windows in service have runs apart. -/
theorem runsApart_of_windowsOk {s : State} (h : s.WindowsOk) {ws : List (Fin 8)} (honce : ws.Pairwise (· < ·))
    (henabled : ∀ w ∈ ws, s.enabled w = true) : RunsApart s ws := by
  refine List.Pairwise.imp_of_mem (fun {w v} hw hv hlt p hp => ?_) honce
  have hwService := inService_of_enabled (henabled w hw)
  have hvService := inService_of_enabled (henabled v hv)
  have hrun : (s.desc v).inRun p = true := (mem_run (runOk_of_usable (h.usable v hvService)) p).mp hp
  exact Bool.eq_false_iff.mpr fun k => Fin.ne_of_lt hlt (owner_unique h hwService hvService k hrun)

/-- R102: the record of a window's commit, from the state before its flip. -/
def commitEvent (s : State) (f : TakenCommit) (w : Fin 8) : Event :=
  { kind := .commit, window := some w, group := some f.group,
    detail := match f.origin with | .boundary => 0x01#8 | .forced => 0x02#8 | .close => 0x03#8,
    tag := (s.window w).armedTag, phase := (s.window w).armPhase,
    count := BitVec.ofNat 8 (min (s.runPages w .dirty).length 255) }

/-- R102: a COMMIT record made after the flip says what the window was before it. -/
theorem recordCommit_flipped {s t : State} {f : TakenCommit} {w : Fin 8}
    (hwindow : t.window w = flippedWindow s (s.window w)) (hrun : (s.desc w).runOk = true) :
    t.recordCommit f.group f.origin w (s.pagesIn (s.desc w) .dirty).length = t.record (commitEvent s f w) := by
  unfold State.recordCommit
  rw [hwindow, pagesIn_eq_runPages hrun]
  unfold commitEvent
  cases f.origin <;> rfl

theorem foldl_recordCommit {s : State} {f : TakenCommit} {ws : List (Fin 8)} {t : State}
    (hwindow : ∀ w ∈ ws, t.window w = flippedWindow s (s.window w)) (hrun : ∀ w ∈ ws, (s.desc w).runOk = true) :
    ws.foldl (fun u w => u.recordCommit f.group f.origin w (s.pagesIn (s.desc w) .dirty).length) t =
      ws.foldl (fun u w => u.record (commitEvent s f w)) t := by
  induction ws generalizing t with
  | nil => rfl
  | cons w ws ih =>
    rw [List.foldl_cons, List.foldl_cons,
      recordCommit_flipped (hwindow w List.mem_cons_self) (hrun w List.mem_cons_self)]
    refine ih (fun v hv => ?_) fun v hv => hrun v (List.mem_cons_of_mem w hv)
    exact (window_congr (record_windows t _) v).trans (hwindow v (List.mem_cons_of_mem w hv))

/-- R101: the page of a window that flips. -/
theorem foldl_flipWindow_page_cases (ws : List (Fin 8)) (s : State) :
    (∀ w p, w ∈ ws → (s.desc w).inRun p = true → (s.page p).state = .dirty →
      (ws.foldl State.flipWindow s).page p = (s.page p).flipped) ∧
    (∀ p, (s.page p).state ≠ .dirty → (ws.foldl State.flipWindow s).page p = s.page p) ∧
    (∀ p, (∀ w, w ∈ ws → (s.desc w).inRun p = false) → (ws.foldl State.flipWindow s).page p = s.page p) := by
  refine ⟨fun w p hw hrun hdirty => ?_, fun p hclean => ?_, fun p hout => ?_⟩
  · rw [foldl_flipWindow_page]; exact if_pos ⟨hdirty, w, hw, hrun⟩
  · rw [foldl_flipWindow_page]; exact if_neg fun h => hclean h.1
  · rw [foldl_flipWindow_page]
    exact if_neg fun ⟨_, w, hw, hrun⟩ => Bool.false_ne_true ((hout w hw).symm.trans hrun)

/-- Settles O46: a commit flips where no access ISSUED is of its windows, and a flip is that of one window after the
other, their runs apart, and then their records. -/
theorem commitFlip : Obligations.CommitFlip := by
  unfold Obligations.CommitFlip
  refine ⟨fun s g o => ⟨fun hwaits => ?_, fun hwaits => ?_⟩, fun s f hwindows hset => ?_⟩
  · unfold State.takeCommit
    exact if_pos ((issuedInto_iff _ _).mpr hwaits)
  · unfold State.takeCommit
    exact if_neg fun h => hwaits ((issuedInto_iff _ _).mp h)
  · have hpassed : (f.set.filter s.enabled).Pairwise (· < ·) := hset.filter _
    have henabled : ∀ w ∈ f.set.filter s.enabled, s.enabled w = true := fun w hw => (List.mem_filter.mp hw).2
    have hrun : ∀ w ∈ f.set.filter s.enabled, (s.desc w).runOk = true := fun w hw =>
      runOk_of_usable (hwindows.usable w (inService_of_enabled (henabled w hw)))
    have hwindow : ∀ w ∈ f.set.filter s.enabled,
        ((f.set.filter s.enabled).foldl State.flipWindow s).window w = flippedWindow s (s.window w) := fun w hw =>
      (foldl_flipWindow_window _ s w).trans (if_pos hw)
    obtain ⟨hturned, hclean, hout⟩ := foldl_flipWindow_page_cases (f.set.filter s.enabled) s
    refine ⟨(f.set.filter s.enabled).foldl State.flipWindow s, foldl_flipWindow_eq _ s, hwindow, fun w hw => ?_,
      hturned, hclean, hout, ?_, ?_⟩
    · exact (foldl_flipWindow_window _ s w).trans (if_neg hw)
    · rw [foldl_flipWindow_copyQueue (runsApart_of_windowsOk hwindows hpassed henabled), List.flatMap_def,
        List.flatMap_def, List.map_congr_left fun w hw => pagesIn_eq_runPages (hrun w hw) .dirty]
    · unfold State.flip
      exact foldl_recordCommit hwindow hrun

end Sys2Proof.Laws
end

section
/-! A write that is HELD with reason SEALED, at a boundary. Settles O30. -/

namespace Sys2Proof.Laws

open Sys2Proof Sys2Proof.Machine

/-! ## What a boundary takes -/

theorem isMember_own {s : State} {w : Fin 8} (h : s.enabled w = true) :
    s.isMember (Fin.ofNat 4 (s.desc w).group.toNat) w = true := by
  unfold State.isMember
  rw [h, Bool.true_and, beq_iff_eq]
  exact (Nat.mod_eq_of_lt (s.desc w).group.isLt).symm

/-- R93: what a boundary takes, in the model's terms. -/
theorem boundaryTakes_iff (s : State) (w : Fin 8) : s.boundaryTakes w = true ↔ s.TakenAtBoundary w := by
  unfold State.boundaryTakes State.TakenAtBoundary
  refine Bool.or_eq_true_iff.trans (or_congr ⟨fun htaken => ?_, fun ⟨g, hmember, htakes⟩ => ?_⟩ ?_)
  · obtain ⟨henabled, htakes⟩ := Bool.and_eq_true_iff.mp htaken
    exact ⟨_, isMember_own henabled, (takesCommit_iff s _).mp htakes⟩
  · have henabled := isMember_enabled hmember
    have hg := isMember_unique (isMember_own henabled) hmember
    exact Bool.and_eq_true_iff.mpr ⟨henabled, (takesCommit_iff s _).mpr (hg ▸ htakes)⟩
  · cases s.pendingFlip with
    | none => exact ⟨nofun, fun ⟨_, h, _⟩ => nomatch h⟩
    | some f =>
      exact ⟨fun h => ⟨f, rfl, List.contains_iff_mem.mp h⟩, fun ⟨k, h, hw⟩ =>
        List.contains_iff_mem.mpr (Option.some.inj h ▸ hw)⟩

/-- R45: the state after the hold of a write times out. -/
def timedOut (s : State) (a : Access) (w : Fin 8) (p : Fin 512) : State :=
  ({ s with holdCount := 0, pPort := refused a } : State).record
    { kind := .holdTimeout, window := some w, page := some p }

theorem timeOut_eq (s : State) (a : Access) (w : Fin 8) (p : Fin 512) : s.timeOut a w p = timedOut s a w p := by
  unfold State.timeOut
  rw [refuseAccess_eq]
  rfl

/-! ## The hold at a boundary -/

section Hold

variable {s : State} {a : Access} {w : Fin 8} {p : Fin 512} (hheld : s.pPort.phase = .held a .sealed w p)

include hheld

theorem holdBoundary_taken {taken : Fin 8 → Bool} (h : taken w = true) : s.holdBoundary taken = s := by
  unfold State.holdBoundary
  rw [hheld]
  exact if_pos h

theorem holdBoundary_timeOut {taken : Fin 8 → Bool} (h : taken w = false) (hdue : s.holdMax.toNat ≤ s.holdCount + 1) :
    s.holdBoundary taken = timedOut s a w p := by
  unfold State.holdBoundary
  rw [hheld, ← timeOut_eq]
  exact (if_neg (by rw [h]; exact Bool.false_ne_true)).trans (if_pos (decide_eq_true hdue))

theorem holdBoundary_count {taken : Fin 8 → Bool} (h : taken w = false) (hlt : s.holdCount + 1 < s.holdMax.toNat) :
    s.holdBoundary taken = { s with holdCount := s.holdCount + 1 } := by
  unfold State.holdBoundary
  rw [hheld]
  refine (if_neg (by rw [h]; exact Bool.false_ne_true)).trans (if_neg ?_)
  rw [show s.holdDue = decide _ from rfl, decide_eq_true_iff]
  exact Nat.not_le_of_lt hlt

theorem holdTimeout_due (htaken : s.boundaryTakes w = false) (hdue : s.holdMax.toNat ≤ s.holdCount + 1) :
    s.holdTimeout = timedOut s a w p := by
  unfold State.holdTimeout
  rw [hheld, ← timeOut_eq]
  refine if_pos ?_
  rw [htaken, show s.holdDue = true from decide_eq_true hdue]
  rfl

theorem holdTimeout_not_due (h : s.boundaryTakes w = true ∨ s.holdCount + 1 < s.holdMax.toNat) : s.holdTimeout = s := by
  unfold State.holdTimeout
  rw [hheld]
  refine if_neg fun hboth => ?_
  obtain ⟨hfree, hdue⟩ := Bool.and_eq_true_iff.mp hboth
  rcases h with htaken | hlt
  · rw [htaken] at hfree; cases hfree
  · exact Nat.not_le_of_lt hlt (of_decide_eq_true hdue)

/-- R46: a late write of policy STALL stays held, and keeps its hold count. -/
theorem rejudge_still_held (hwrite : a.write = true) (hplace : s.place .p a = .view w)
    (hlate : (s.window w).commit ≠ .isOpen) (hpolicy : (s.desc w).policy = 1#2) :
    s.rejudge.pPort = holding a .sealed w ((s.desc w).pageAt a.addr) ∧ s.rejudge.holdCount = s.holdCount := by
  have hsealed : s.sealedHold = true := by rw [sealedHold_eq, hheld]; rfl
  have hjudged : s.settle .p = _ := (settle_of_waits (x := .p) (.inr ⟨.sealed, w, p, hheld⟩)).trans
    (judgeAccess_lateStall hwrite hplace hlate hpolicy)
  rw [rejudge_pPort, rejudge_holdCount, hjudged, hsealed]
  exact ⟨rfl, rfl⟩

/-- R46: a write whose window has become OPEN waits for its window no more. -/
theorem rejudge_released (hwrite : a.write = true) (hplace : s.place .p a = .view w)
    (hopen : (s.window w).commit = .isOpen) :
    (∀ v q, s.rejudge.pPort.phase ≠ .held a .sealed v q) ∧ s.rejudge.holdCount = 0 := by
  have hjudged : s.settle .p = _ := (settle_of_waits (x := .p) (.inr ⟨.sealed, w, p, hheld⟩)).trans
    (judgeAccess_openWrite hwrite hplace hopen)
  rw [rejudge_pPort, rejudge_holdCount, hjudged]
  refine ⟨fun v q h => ?_, holdCount_takeJudgement s a (judgeWrite_not_sealed s w _ a)⟩
  have hphase := (phaseOf_takeJudgement s .p a (s.judgeWrite w ((s.desc w).pageAt a.addr) a)).symm.trans h
  cases hjudge : s.judgeWrite w ((s.desc w).pageAt a.addr) a with
  | go r => rw [hjudge] at hphase; cases hphase
  | hold why u t =>
    rw [hjudge] at hphase
    cases hphase
    exact judgeWrite_not_sealed s w _ a v q hjudge
  | refuse e => rw [hjudge] at hphase; cases hphase

end Hold

/-- R41: what makes a judgement hold a write for its window. -/
theorem judge_sealed {s : State} {a : Access} {w : Fin 8} {p : Fin 512} (h : s.judge .p a = .hold .sealed w p) :
    a.write = true ∧ s.place .p a = .view w ∧ (s.window w).commit ≠ .isOpen ∧ (s.desc w).policy = 1#2 ∧
      p = (s.desc w).pageAt a.addr := by
  obtain ⟨v, hplace⟩ := judge_hold_view h
  rw [judge_of_view hplace] at h
  cases hwrite : a.write with
  | false => rw [judgeView_producerRead s v _ hwrite] at h; cases h
  | true =>
    have hview : s.judgeView .p v ((s.desc v).pageAt a.addr) a = s.judgeProducerWrite v ((s.desc v).pageAt a.addr) a := by
      unfold State.judgeView; rw [hwrite]
    rw [hview] at h
    unfold State.judgeProducerWrite at h
    split at h
    next hsealed =>
      split at h
      · exact absurd h (judgeWrite_not_sealed s v _ a w p)
      next hpolicy =>
        cases h
        refine ⟨rfl, hplace, bne_iff_ne.mp hsealed, ?_, rfl⟩
        unfold Descriptor.policyOf at hpolicy
        split at hpolicy
        next hstall => exact hstall
        · split at hpolicy <;> cases hpolicy
      · cases h
    · exact absurd h (judgeWrite_not_sealed s v _ a w p)

/-! ## The statement -/

/-- R93: a window that flips within the boundary is taken by it. -/
theorem taken_of_flips {s : State} {w : Fin 8} (h : Flips s w) : s.TakenAtBoundary w :=
  let ⟨g, hmember, htakes, _⟩ := h
  .inl ⟨g, hmember, htakes⟩

/-- R93: what a boundary takes and does not flip: a window of the pending flip, or of a flip that waits. -/
theorem taken_not_flips {s : State} {g : Fin 4} {w : Fin 8} (hmember : s.isMember g w = true)
    (h : (∃ f, s.pendingFlip = some f ∧ f.group = g ∧ w ∈ f.set) ∨
      ((s.groupOutcome g = .commit ∨ s.groupOutcome g = .force) ∧ s.FlipWaits g)) :
    s.TakenAtBoundary w ∧ ¬Flips s w := by
  rcases h with ⟨f, hpending, hgroup, hw⟩ | ⟨htakes, hwaits⟩
  · refine ⟨.inr ⟨f, hpending, hw⟩, fun ⟨k, hk, htakes, _⟩ => ?_⟩
    cases isMember_unique hmember hk
    obtain ⟨-, -, hnone⟩ := (groupReady_iff s g).mp (takesCommit_ready ((takesCommit_iff s g).mpr htakes))
    exact hnone f hpending hgroup
  · refine ⟨.inl ⟨g, hmember, htakes⟩, fun ⟨k, hk, _, hnow⟩ => ?_⟩
    cases isMember_unique hmember hk
    exact hnow hwaits

/-- R45, R93: the hold of a late write when a boundary is delivered in a judged state. -/
theorem deliver_hold {s : State} {a : Access} {w : Fin 8} {p : Fin 512} (hheld : s.pPort.phase = .held a .sealed w p)
    (hjudged : s.JudgedOk) :
    (¬s.TakenAtBoundary w → s.holdCount + 1 < s.holdMax.toNat →
      s.deliver.pPort = holding a .sealed w p ∧ s.deliver.holdCount = s.holdCount + 1) ∧
    (¬s.TakenAtBoundary w → s.holdMax.toNat ≤ s.holdCount + 1 →
      s.deliver.pPort = refused a ∧ s.deliver.holdCount = 0) ∧
    (s.TakenAtBoundary w → ¬Flips s w →
      s.deliver.pPort = holding a .sealed w p ∧ s.deliver.holdCount = s.holdCount) ∧
    (Flips s w → (∀ v q, s.deliver.pPort.phase ≠ .held a .sealed v q) ∧ s.deliver.holdCount = 0) := by
  obtain ⟨hwrite, hplace, hlate, hpolicy, rfl⟩ := judge_sealed (stands_held ((judgedOk_iff s).mp hjudged .p) hheld).1
  have hservice := serviceSame_judgeGroups s
  have hplaceAfter : s.judgeGroups.place .p a = .view w :=
    (place_of_sameEnabled hservice.enabled (fun v _ => hservice.desc v) .p a).trans hplace
  have hdesc : s.judgeGroups.desc w = s.desc w := hservice.desc w
  have hheldAfter : s.judgeGroups.pPort.phase = .held a .sealed w ((s.desc w).pageAt a.addr) := by
    rw [judgeGroups_pPort]; exact hheld
  obtain ⟨-, -, hflips, hstays⟩ := judgeGroups_windows s w
  have hlateAfter : ¬Flips s w → (s.judgeGroups.window w).commit ≠ .isOpen := by
    intro hno
    rw [hstays hno]
    dsimp only
    split
    · decide
    · exact hlate
  have hnotTaken : ¬s.TakenAtBoundary w → s.boundaryTakes w = false := fun h =>
    Bool.eq_false_iff.mpr fun k => h ((boundaryTakes_iff s w).mp k)
  unfold State.deliver
  refine ⟨fun hno hlt => ?_, fun hno hdue => ?_, fun htaken hno => ?_, fun hflip => ?_⟩
  · rw [holdBoundary_count hheldAfter (hnotTaken hno) (by rw [judgeGroups_holdCount, judgeGroups_holdMax]; exact hlt)]
    have hstill := rejudge_still_held (s := { s.judgeGroups with holdCount := s.judgeGroups.holdCount + 1 })
      hheldAfter hwrite hplaceAfter (hlateAfter fun h => hno (taken_of_flips h)) (hdesc ▸ hpolicy)
    exact ⟨hstill.1.trans (congrArg (fun d : Descriptor => holding a .sealed w (d.pageAt a.addr)) hdesc),
      hstill.2.trans (congrArg (· + 1) (judgeGroups_holdCount s))⟩
  · rw [holdBoundary_timeOut hheldAfter (hnotTaken hno) (by rw [judgeGroups_holdCount, judgeGroups_holdMax]; exact hdue)]
    have hport : (timedOut s.judgeGroups a w ((s.desc w).pageAt a.addr)).pPort = refused a := record_pPort _ _
    have hidle : (timedOut s.judgeGroups a w ((s.desc w).pageAt a.addr)).phaseOf .p = .idle :=
      congrArg PortState.phase hport
    rw [rejudge_pPort, rejudge_holdCount, settle_idle _ .p hidle]
    exact ⟨hport, record_holdCount _ _⟩
  · rw [holdBoundary_taken hheldAfter ((boundaryTakes_iff s w).mpr htaken)]
    obtain ⟨hport, hcount⟩ := rejudge_still_held hheldAfter hwrite hplaceAfter (hlateAfter hno) (hdesc ▸ hpolicy)
    rw [hport, hcount, hdesc, judgeGroups_holdCount]
    exact ⟨rfl, rfl⟩
  · rw [holdBoundary_taken hheldAfter ((boundaryTakes_iff s w).mpr (taken_of_flips hflip))]
    exact rejudge_released hheldAfter hwrite hplaceAfter (by rw [hflips hflip])

/-- Settles O30: a boundary counts, times out, keeps or releases the hold, by what it takes and what it flips. -/
theorem holdCountAndTimeout : Obligations.HoldCountAndTimeout := by
  unfold Obligations.HoldCountAndTimeout
  intro s a w p hheld
  have hnotTaken : ¬s.TakenAtBoundary w → s.boundaryTakes w = false := fun h =>
    Bool.eq_false_iff.mpr fun k => h ((boundaryTakes_iff s w).mp k)
  refine ⟨boundaryTakes_iff s w, fun hsettled hno hdue => ⟨?_, ?_⟩, fun hsettled hor => ?_,
    fun arg hready hsettled hjudged => ?_⟩
  · exact (event_settled State.holdTimeout hsettled).trans
      (congrArg Host.Outcome.next (holdTimeout_due hheld (hnotTaken hno) hdue))
  · exact holdBoundary_timeOut hheld (hnotTaken hno) hdue
  · exact (event_settled State.holdTimeout hsettled).trans (congrArg Host.Outcome.next
      (holdTimeout_not_due hheld (hor.imp_left (boundaryTakes_iff s w).mpr)))
  · obtain ⟨es, overrun, hexec⟩ := exec_boundary arg hready hsettled
    obtain ⟨hcount, hout, hkept, hreleased⟩ := deliver_hold (s := atBoundary s s.timer.sync es overrun) hheld
      (judgedOk_of_eq hjudged)
    have hport : ({ s.pPort with resp := none } : PortState) = holding a .sealed w p :=
      congrArg (fun ph : Phase => ({ phase := ph, resp := none } : PortState)) hheld
    rw [hport]
    exact ⟨_, hexec, hcount, hout, fun g hmember h =>
      let ⟨htaken, hno⟩ := taken_not_flips hmember h
      hkept htaken hno, fun g hmember htakes hnow => hreleased ⟨g, hmember, htakes, hnow⟩⟩

end Sys2Proof.Laws
end

section
/-! The Memory Arbiter's grants: the decision, and what a grant does at each requester. Settles O33, O35, O36, O37,
O38 and O39. -/

namespace Sys2Proof.Laws

open Sys2Proof Sys2Proof.Machine

/-! ## The decision -/

theorem engineRequests_iff (s : State) : s.engineRequests = true ↔
    (s.engine.phase = .idle ∧ s.copyQueue ≠ []) ∨
      ((s.engine.phase = .read ∨ s.engine.phase = .write) ∧ s.engine.issued = false) := by
  unfold State.engineRequests
  cases s.engine.phase <;> simp

theorem decision_free {s : State} (h : s.mport = .free) : s.decision =
    chooseGrant (s.portRequests .c) (s.portRequests .p) s.engineRequests s.demandPage.isSome s.streak s.pointer := by
  unfold State.decision
  rw [h]

/-- Rank 1 of R136: the consumer, unless its streak is at the limit and another requester waits. -/
theorem chooseGrant_consumer {c p e d : Bool} {n : Nat} {t : Pointer} (hc : c = true)
    (hlimit : ¬(8 ≤ n ∧ (p = true ∨ e = true))) : chooseGrant c p e d n t = some .consumer := by
  simp [chooseGrant, Config.streakLimit, hc, hlimit]

/-- Below rank 1: rank 2, a copy for a demand request, and then rank 3. -/
theorem chooseGrant_lower {c p e d : Bool} {n : Nat} {t : Pointer}
    (hlimit : ¬(c = true ∧ ¬(8 ≤ n ∧ (p = true ∨ e = true)))) :
    chooseGrant c p e d n t = if e = true ∧ d = true then some .copy else rankThree p e t := by
  unfold chooseGrant
  simp only [Config.streakLimit, Bool.or_eq_true, Bool.and_eq_true, if_neg hlimit]

/-- R136: the grant decision by rank. -/
theorem decision_ranks {s : State} (h : s.mport = .free) :
    let c := s.portRequests .c = true
    let p := s.portRequests .p = true
    let e := s.engineRequests = true
    let limited := 8 ≤ s.streak ∧ (p ∨ e)
    let demand := s.demandPage ≠ none
    (c → ¬limited → s.decision = some .consumer) ∧
    (¬(c ∧ ¬limited) → e → demand → s.decision = some .copy) ∧
    (¬(c ∧ ¬limited) → e → ¬demand → ¬p → s.decision = some .copy) ∧
    (¬(c ∧ ¬limited) → p → ¬e → s.decision = some .producer) ∧
    (¬(c ∧ ¬limited) → p → e → ¬demand → s.pointer = .copy → s.decision = some .producer) ∧
    (¬(c ∧ ¬limited) → p → e → ¬demand → s.pointer = .producer → s.decision = some .copy) ∧
    (¬c → ¬p → ¬e → s.decision = none) := by
  intro c p e limited demand
  have hd : s.demandPage.isSome = true ↔ demand := Option.isSome_iff_ne_none
  rw [decision_free h]
  refine ⟨chooseGrant_consumer, fun hc he hdemand => ?_, fun hc he hdemand hp => ?_, fun hc hp he => ?_,
    fun hc hp he hdemand ht => ?_, fun hc hp he hdemand ht => ?_, fun hc hp he => ?_⟩
  · rw [chooseGrant_lower hc, if_pos ⟨he, hd.2 hdemand⟩]
  · rw [chooseGrant_lower hc, if_neg fun k => hdemand (hd.1 k.2)]
    simp [rankThree, show s.portRequests .p = false from Bool.not_eq_true _ ▸ hp, show s.engineRequests = true from he]
  · rw [chooseGrant_lower hc, if_neg fun k => he k.1]
    simp [rankThree, show s.portRequests .p = true from hp, show s.engineRequests = false from Bool.not_eq_true _ ▸ he]
  · rw [chooseGrant_lower hc, if_neg fun k => hdemand (hd.1 k.2)]
    simp [rankThree, show s.portRequests .p = true from hp, show s.engineRequests = true from he, ht]
  · rw [chooseGrant_lower hc, if_neg fun k => hdemand (hd.1 k.2)]
    simp [rankThree, show s.portRequests .p = true from hp, show s.engineRequests = true from he, ht]
  · rw [chooseGrant_lower fun k => hc k.1, if_neg fun k => he k.1]
    simp [rankThree, show s.portRequests .p = false from Bool.not_eq_true _ ▸ hp,
      show s.engineRequests = false from Bool.not_eq_true _ ▸ he]

theorem exec_grant_idle {s : State} (h : s.decision = none) : exec .grant s = .next s :=
  congrArg Host.Outcome.next (arbitrated_none h)

theorem exec_grant_due {s : State} {q : Requester} (h : s.decision = some q) :
    exec .grant s = .next (s.grantTo q).rejudge :=
  congrArg Host.Outcome.next (arbitrated_some h)

/-- Settles O33: the decision by `decision_ranks`; what a command does about a grant that is due is `exec_arbitrated`,
and the mark `freed` alone makes no difference because a command starts from the settled state. -/
theorem grantDecisionFollowsTheRanks : Obligations.GrantDecisionFollowsTheRanks := by
  intro s
  refine ⟨portRequests_iff s, engineRequests_iff s, demandPage_eq_some s, fun q m => decision_busy, decision_ranks,
    exec_grant_idle, fun hdue => ?_, fun hidle c hgrant hresponse => ?_⟩
  · obtain ⟨q, hq⟩ := Option.ne_none_iff_exists'.1 hdue
    exact ⟨s.arbitrated, rfl, decision_arbitrated s, freed_arbitrated hq,
      fun r d => (exec_arbitrated s (by simp) (.inr ⟨r, d, rfl⟩)).symm,
      fun hfreed c hgrant => (exec_arbitrated s hgrant (.inl hfreed)).symm⟩
  · rw [← settled_of_idle hidle, exec_settled s hgrant hresponse]

/-! ## A grant to a port handler -/

/-- R139: the state in which the access granted to the consumer handler is ISSUED, before what a marker does. -/
def consumerIssued (s : State) (a : Access) (r : Resolution) : State :=
  { s with
    streak := min (s.streak + 1) 8, mport := .busy .consumer { a with addr := r.addr }, freed := false,
    cPort := { phase := .issued a r, resp := none } }

/-- R139: the state in which the access granted to the producer handler is ISSUED, before what a marker does. -/
def producerIssued (s : State) (a : Access) (r : Resolution) : State :=
  { s with
    streak := 0, pointer := .producer, mport := .busy .producer { a with addr := r.addr }, freed := false,
    pPort := { phase := .issued a r, resp := none } }

theorem exec_grant_consumer {s : State} {a : Access} {r : Resolution} (h : s.decision = some .consumer)
    (hp : s.cPort.phase = .pending a r) :
    exec .grant s = .next ((consumerIssued s a r).grantEffect a r).rejudge := by
  have hport : (s.noteGrant .consumer).grantPort .c .consumer = (consumerIssued s a r).grantEffect a r :=
    grantPort_pending (s := s.noteGrant .consumer) (x := .c) hp .consumer
  rw [exec_grant_due h, ← hport]
  rfl

theorem exec_grant_producer {s : State} {a : Access} {r : Resolution} (h : s.decision = some .producer)
    (hp : s.pPort.phase = .pending a r) :
    exec .grant s = .next ((producerIssued s a r).grantEffect a r).rejudge := by
  have hport : (s.noteGrant .producer).grantPort .p .producer = (producerIssued s a r).grantEffect a r :=
    grantPort_pending (s := s.noteGrant .producer) (x := .p) hp .producer
  rw [exec_grant_due h, ← hport]
  rfl

theorem grantEffect_plain (s : State) (a : Access) {r : Resolution} (h : ∀ w m, r.cls ≠ .marker w m) :
    s.grantEffect a r = s := by
  unfold State.grantEffect
  cases hcls : r.cls with
  | marker w m => exact absurd hcls (h w m)
  | view w p bank => rfl
  | bankRegion w bank => rfl
  | plain => rfl

theorem grantEffect_marker (s : State) (a : Access) {r : Resolution} {w : Fin 8} {m : Marker}
    (h : r.cls = .marker w m) : s.grantEffect a r = s.takeMarker a w m := by
  unfold State.grantEffect
  rw [h]

/-- Settles O35. -/
theorem grantIssuesAPortAccess : Obligations.GrantIssuesAPortAccess := by
  intro s a r hplain
  constructor
  · intro hdue hp
    rw [exec_grant_consumer hdue hp, grantEffect_plain _ a hplain]
    rfl
  · intro hdue hp
    rw [exec_grant_producer hdue hp, grantEffect_plain _ a hplain]
    rfl

/-! ## Markers -/

theorem late_iff (t : Timer) : t.late = true ↔ t.fcut ≠ 0#24 ∧ t.fcut.toNat ≤ t.counter.toNat := by
  unfold Timer.late
  simp

/-- What a COMMIT marker writes into its window. -/
def markedCommit (s : State) (w : Fin 8) (tag : Word) (c : CommitState) : Window :=
  { s.window w with commit := c, armedTag := tag, armPhase := s.timer.counter }

theorem commitMarker_open {s : State} {w : Fin 8} {tag : Word} (h : (s.window w).commit = .isOpen)
    (hlate : s.timer.late = false) :
    s.commitMarker w tag = (s.setWindow w (markedCommit s w tag .armed)).setNoted w false := by
  unfold State.commitMarker
  simp only [h, hlate, Bool.false_eq_true, if_false]
  rfl

theorem commitMarker_open_late {s : State} {w : Fin 8} {tag : Word} (h : (s.window w).commit = .isOpen)
    (hlate : s.timer.late = true) :
    s.commitMarker w tag = ((s.setWindow w (markedCommit s w tag .armedLate)).setNoted w false).record
      { kind := .markerLate, window := some w, tag := tag, phase := s.timer.counter } := by
  unfold State.commitMarker
  simp only [h, hlate, if_true]
  rfl

theorem commitMarker_armed {s : State} {w : Fin 8} {tag : Word} (h : (s.window w).commit ≠ .isOpen) :
    s.commitMarker w tag = s.setWindow w (markedCommit s w tag (s.window w).commit) := by
  unfold State.commitMarker
  cases hc : (s.window w).commit with
  | isOpen => exact absurd hc h
  | armed => simp only [markedCommit, hc]
  | armedLate => simp only [markedCommit, hc]

/-- Settles O36. -/
theorem commitMarkerAtItsGrant : Obligations.CommitMarkerAtItsGrant := by
  intro s a r w tag hdue hp hcls hdata i late armed
  have hgrant : exec .grant s = .next (i.commitMarker w tag).rejudge := by
    rw [exec_grant_producer hdue hp, grantEffect_marker _ a hcls]
    unfold State.takeMarker
    rw [hdata]
    rfl
  refine ⟨fun hopen hlate => ?_, fun hopen hlate => ?_, fun hopen => ?_⟩
  · have hl : i.timer.late = false := Bool.eq_false_iff.2 fun k => hlate ((late_iff _).1 k)
    rw [hgrant, commitMarker_open (s := i) hopen hl]
    rfl
  · rw [hgrant, commitMarker_open_late (s := i) hopen ((late_iff _).2 hlate)]
    rfl
  · rw [hgrant, commitMarker_armed (s := i) hopen]
    rfl

theorem leaseOpen_opens {s : State} {w : Fin 8} (h : (s.window w).bracket ≠ .isOpen) :
    s.leaseOpen w = s.setWindow w { s.window w with bracket := .isOpen } := by
  unfold State.leaseOpen
  cases hb : (s.window w).bracket with
  | isOpen => exact absurd hb h
  | closed => rfl
  | revoked => rfl

theorem judgeClose_idle {s : State} {g : Fin 4} (h : (s.group g).state = .idle) : s.judgeClose g = s := by
  unfold State.judgeClose
  rw [h]

theorem judgeClose_deferred {s : State} {g : Fin 4} (h : (s.group g).state = .deferred) :
    s.judgeClose g =
      if !s.groupReady g then s.groupIdle g
      else if !(s.openMembers g).isEmpty then s
      else if s.freeze.latch then s
      else s.takeCommit g .close := by
  unfold State.judgeClose
  rw [h]

/-- Settles O37. -/
theorem leaseMarkersAtTheirGrant : Obligations.LeaseMarkersAtTheirGrant := by
  intro s a r w hdue hp i moved g j
  have hgrant {m : Marker} (hcls : r.cls = .marker w m) :
      exec .grant s = .next (i.takeMarker a w m).rejudge := by
    rw [exec_grant_consumer hdue hp, grantEffect_marker _ a hcls]
    rfl
  have hclose (hb : (s.window w).bracket = .isOpen) : i.leaseClose w = j.judgeClose g := by
    unfold State.leaseClose
    rw [show (i.window w).bracket = .isOpen from hb]
    rfl
  refine ⟨fun hcls hb => ?_, fun hcls hb => ?_, fun hcls hb => ?_, fun hcls hb => ?_, fun hcls hb hg => ?_,
    fun hcls hb hg => ?_⟩
  · rw [hgrant hcls]
    exact congrArg (fun t => Host.Outcome.next t.rejudge) (leaseOpen_opens (s := i) hb)
  · rw [hgrant hcls]
    unfold State.takeMarker State.leaseOpen
    rw [show (i.window w).bracket = .isOpen from hb]
  · rw [hgrant hcls]
    unfold State.takeMarker State.leaseClose
    rw [show (i.window w).bracket = .closed from hb]
  · rw [hgrant hcls]
    unfold State.takeMarker State.leaseClose
    rw [show (i.window w).bracket = .revoked from hb]
    rfl
  · rw [hgrant hcls]
    exact congrArg (fun t => Host.Outcome.next t.rejudge) ((hclose hb).trans (judgeClose_idle (s := j) hg))
  · have hjudged : exec .grant s = .next (j.judgeClose g).rejudge := by
      rw [hgrant hcls]
      exact congrArg (fun t => Host.Outcome.next t.rejudge) (hclose hb)
    rw [hjudged, judgeClose_deferred (s := j) hg]
    refine ⟨fun hready => ?_, fun hready hheld => ?_, fun hready hnone hlatch => ?_⟩
    · rw [hready]
      rfl
    · rw [hready]
      by_cases hopen : j.openMembers g = []
      · have hlatch : j.freeze.latch = true := hheld.resolve_left fun k => k hopen
        simp [hopen, hlatch]
      · simp [hopen]
    · have hl : j.freeze.latch = false := hlatch
      simp [hready, hnone, hl]

/-! ## A grant to the Copy Engine -/

/-- R139: the access the Copy Engine presents: the present pair in READ, its other side in WRITE. -/
theorem engineBurst_read {s : State} {p : Fin 512} (h : s.engine.phase = .read) (hp : s.engine.page = some p) :
    s.engineBurst =
      { addr := (s.desc (s.owner p)).pairAddr (s.page p).bank p s.engine.pair, write := false, size := 2#2,
        blen := 3#2, wdata := [] } := by
  unfold State.engineBurst
  rw [h, hp]
  rfl

theorem engineBurst_write {s : State} {p : Fin 512} (h : s.engine.phase = .write) (hp : s.engine.page = some p) :
    s.engineBurst =
      { addr := (s.desc (s.owner p)).pairAddr (s.page p).bank.other p s.engine.pair, write := true, size := 2#2,
        blen := 3#2, wdata := s.engine.buffer } := by
  unfold State.engineBurst
  rw [h, hp]
  rfl

theorem exec_grant_copy {s : State} (h : s.decision = some .copy) {t : State}
    (ht : (s.noteGrant .copy).grantEngine = t) : exec .grant s = .next (t.issue .copy t.engineBurst).rejudge := by
  rw [exec_grant_due h, ← ht]
  rfl

/-- R114: the state in which the copy of the page at the head of the queue has begun. -/
def copyStarted (s : State) (p : Fin 512) (rest : List (Fin 512)) : State :=
  { s with
    streak := 0, pointer := .copy, copyQueue := rest, pages := s.pages.set p.val (s.page p).started,
    engine := { phase := .read, page := some p, pair := 0, issued := true, buffer := s.engine.buffer } }

theorem grantEngine_starts {s : State} {p : Fin 512} {rest : List (Fin 512)} (h : s.engine.phase = .idle)
    (hq : s.copyQueue = p :: rest) : (s.noteGrant .copy).grantEngine = copyStarted s p rest := by
  unfold State.grantEngine
  rw [show (s.noteGrant .copy).engine.phase = .idle from h]
  unfold State.startCopy
  rw [show (s.noteGrant .copy).copyQueue = p :: rest from hq]
  rfl

theorem page_copyStarted (s : State) (p : Fin 512) (rest : List (Fin 512)) :
    (copyStarted s p rest).page p = (s.page p).started :=
  page_setPage_same s p (s.page p).started

/-- R115: the state in which the engine has the present burst ISSUED. -/
def burstIssued (s : State) : State :=
  { s with streak := 0, pointer := .copy, engine := { s.engine with issued := true } }

theorem grantEngine_burst {s : State} (h : s.engine.phase = .read ∨ s.engine.phase = .write) :
    (s.noteGrant .copy).grantEngine = burstIssued s := by
  unfold State.grantEngine
  rcases h with h | h
  · rw [show (s.noteGrant .copy).engine.phase = .read from h]
    rfl
  · rw [show (s.noteGrant .copy).engine.phase = .write from h]
    rfl

/-- Settles O38. -/
theorem copyBurstsAtTheirGrant : Obligations.CopyBurstsAtTheirGrant := by
  intro s p hdue d offset base
  have haddr (bank : Bank) (n : Nat) : base bank + offset n = d.pairAddr bank p n := by
    cases bank <;> rfl
  refine ⟨fun rest hidle hqueue => ?_, fun hread hpage => ?_, fun hwrite hpage => ?_⟩
  · rw [exec_grant_copy hdue (grantEngine_starts hidle hqueue), engineBurst_read (p := p) rfl rfl, page_copyStarted,
      haddr]
    rfl
  · rw [exec_grant_copy hdue (grantEngine_burst (.inl hread)), engineBurst_read (s := burstIssued s) hread hpage, haddr]
    rfl
  · rw [exec_grant_copy hdue (grantEngine_burst (.inr hwrite)), engineBurst_write (s := burstIssued s) hwrite hpage,
      haddr]
    rfl

/-! ## The two laws of the bridge -/

theorem judgeView_of_judge {s : State} {x : Port} {a : Access} {r : Resolution} (h : s.judge x a = .go r)
    {w : Fin 8} {p : Fin 512} {bank : Bank} (hr : r.cls = .view w p bank) :
    ∃ v q, s.judgeView x v q a = .go r := by
  unfold State.judge at h
  split at h
  next v m _ =>
    injection h with k
    subst k
    cases hr
  next v _ => exact ⟨v, _, h⟩
  next v side _ =>
    split at h
    · cases h
    · injection h with k
      subst k
      cases hr
  next =>
    injection h with k
    subst k
    cases hr

theorem served_inj {s : State} {v w : Fin 8} {q p : Fin 512} {side bank : Bank} {a : Access} {r : Resolution}
    (h : s.served v q side a = .go r) (hr : r.cls = .view w p bank) :
    v = w ∧ q = p ∧ side = bank ∧ r.addr = (s.desc w).bankAddr bank a.addr := by
  injection h with k
  subst k
  injection hr with hv hq hside
  subst hv hq hside
  exact ⟨rfl, rfl, rfl, rfl⟩

/-- R34: what the consumer is served. -/
theorem consumerView_served {s : State} {a : Access} {r : Resolution} (h : s.judge .c a = .go r)
    {w : Fin 8} {p : Fin 512} {bank : Bank} (hr : r.cls = .view w p bank) :
    a.write = false ∧ bank = (s.page p).bank ∧ r.addr = (s.desc w).bankAddr bank a.addr := by
  obtain ⟨v, q, hview⟩ := judgeView_of_judge h hr
  cases hw : a.write with
  | true =>
    unfold State.judgeView at hview
    rw [hw] at hview
    cases hview
  | false =>
    rw [judgeView_consumerRead s v q hw] at hview
    obtain ⟨rfl, rfl, hside, haddr⟩ := served_inj hview hr
    exact ⟨rfl, hside.symm, haddr⟩

theorem judgeWrite_of_go {s : State} {v : Fin 8} {q : Fin 512} {a : Access} {r : Resolution}
    (h : s.judgeWrite v q a = .go r) :
    ((s.page q).state = .synced ∨ (s.page q).state = .dirty) ∧ s.served v q (s.page q).bank.other a = .go r := by
  unfold State.judgeWrite at h
  split at h
  next hstate => exact ⟨.inl hstate, h⟩
  next hstate => exact ⟨.inr hstate, h⟩
  all_goals cases h

theorem judgeProducerWrite_of_go {s : State} {v : Fin 8} {q : Fin 512} {a : Access} {r : Resolution}
    (h : s.judgeProducerWrite v q a = .go r) : s.judgeWrite v q a = .go r := by
  unfold State.judgeProducerWrite at h
  split at h
  · split at h
    · exact h
    · cases h
    · cases h
  · exact h

/-- R36: what a write of the producer is served. -/
theorem producerWrite_served {s : State} {a : Access} {r : Resolution} (h : s.judge .p a = .go r) (hw : a.write = true)
    {w : Fin 8} {p : Fin 512} {bank : Bank} (hr : r.cls = .view w p bank) :
    ((s.page p).state = .synced ∨ (s.page p).state = .dirty) ∧ bank = (s.page p).bank.other ∧
      r.addr = (s.desc w).bankAddr bank a.addr := by
  obtain ⟨v, q, hview⟩ := judgeView_of_judge h hr
  have hwrite : s.judgeProducerWrite v q a = .go r := by
    unfold State.judgeView at hview
    rw [hw] at hview
    exact hview
  obtain ⟨hstate, hserved⟩ := judgeWrite_of_go (judgeProducerWrite_of_go hwrite)
  obtain ⟨rfl, rfl, hside, haddr⟩ := served_inj hserved hr
  exact ⟨hstate, hside.symm, haddr⟩

/-- Settles O39: a PENDING access stands as it would be judged now (`stands_pending`), so its resolution is the one its
page calls for at the grant. -/
theorem theTwoLawsAtTheGrant : Obligations.TheTwoLawsAtTheGrant := by
  intro s a r w p bank hjudged hcls
  have hplain (v : Fin 8) (m : Marker) : r.cls ≠ .marker v m := by simp [hcls]
  constructor
  · intro hdue hp
    obtain ⟨hw, hbank, haddr⟩ := consumerView_served (stands_pending (hjudged .c) hp).1 hcls
    refine ⟨hw, hbank, _, (grantIssuesAPortAccess s a r hplain).1 hdue hp, ?_, rejudge_pages _⟩
    rw [rejudge_mport, ← hbank, ← haddr]
  · intro hdue hp hw
    obtain ⟨hstate, hbank, haddr⟩ := producerWrite_served (stands_pending (hjudged .p) hp).1 hw hcls
    refine ⟨hstate, hbank, _, (grantIssuesAPortAccess s a r hplain).2 hdue hp, ?_, rejudge_pages _⟩
    rw [rejudge_mport, ← hbank, ← haddr]

end Sys2Proof.Laws
end

section
/-! The memory's response: the end of a port access, and the Copy Engine's moves. Settles O40, O41 and O42. -/

namespace Sys2Proof.Laws

open Sys2Proof Sys2Proof.Machine

/-! ## What a response does -/

theorem exec_response_idle {s : State} (r : BusResp) (d : List Word) (h : s.mport = .free) (hidle : s.decision = none) :
    exec (.memoryResponse r d) s = .next s := by
  show Host.Outcome.next (s.arbitrated.response r d) = _
  rw [arbitrated_none hidle, response_free r d h]

theorem exec_response_busy {s : State} {q : Requester} {m : Access} (r : BusResp) (d : List Word)
    (h : s.mport = .busy q m) :
    exec (.memoryResponse r d) s =
      .next ((({ s with mport := .free } : State).holderStep q r d).flipAfter q).rejudge.openDecision := by
  show Host.Outcome.next (s.arbitrated.response r d) = _
  rw [arbitrated_none (decision_busy h), response_busy r d h]

theorem exec_response_copy {s : State} {m : Access} (r : BusResp) (d : List Word) (h : s.mport = .busy .copy m) :
    exec (.memoryResponse r d) s =
      .next (({ s with mport := .free } : State).copyResponse r d).rejudge.openDecision := by
  rw [exec_response_busy r d h, flipAfter_copy]
  rfl

theorem holderStep_port (s : State) (x : Port) (r : BusResp) (d : List Word) :
    s.holderStep (requesterOf x) r d = s.endAccess x r d := by
  cases x <;> rfl

theorem flipAfter_none {s : State} (q : Requester) (h : s.pendingFlip = none) : s.flipAfter q = s := by
  unfold State.flipAfter
  cases q <;> simp only [h]

theorem flipAfter_port_some {s : State} {f : TakenCommit} (x : Port) (h : s.pendingFlip = some f) :
    s.flipAfter (requesterOf x) = { s with pendingFlip := none }.flip f := by
  unfold State.flipAfter
  cases x <;> simp only [requesterOf, h]

/-! ## The end of a port access -/

theorem endAccess_okay {s : State} {x : Port} {a : Access} {res : Resolution} (h : s.phaseOf x = .issued a res)
    (d : List Word) :
    s.endAccess x .okay d = (s.respond x .okay (readBeats a d)).endWrite x a res.cls := by
  unfold State.endAccess
  rw [h]

theorem endAccess_error {s : State} {x : Port} {a : Access} {res : Resolution} (h : s.phaseOf x = .issued a res)
    (d : List Word) {e : Event} (he : memoryErrorOf x res.cls = some e) :
    s.endAccess x .error d = (s.respond x .error (readBeats a d)).record e := by
  unfold State.endAccess
  simp only [h, he]

theorem endAccess_error_silent {s : State} {x : Port} {a : Access} {res : Resolution}
    (h : s.phaseOf x = .issued a res) (d : List Word) (he : memoryErrorOf x res.cls = none) :
    s.endAccess x .error d = s.respond x .error (readBeats a d) := by
  unfold State.endAccess
  simp only [h, he]

theorem respond_pendingFlip (s : State) (x : Port) (r : BusResp) (d : List Word) :
    (s.respond x r d).pendingFlip = s.pendingFlip := by
  cases x <;> rfl

theorem pendingFlip_endAccess (s : State) (x : Port) (r : BusResp) (d : List Word) :
    (s.endAccess x r d).pendingFlip = s.pendingFlip := by
  by_cases hissued : ∃ a res, s.phaseOf x = .issued a res
  · obtain ⟨a, res, h⟩ := hissued
    cases r with
    | okay => rw [endAccess_okay h, endWrite_eq, respond_pendingFlip]
    | error =>
      cases he : memoryErrorOf x res.cls with
      | none => rw [endAccess_error_silent h d he, respond_pendingFlip]
      | some e => rw [endAccess_error h d he, record_pendingFlip, respond_pendingFlip]
  · rw [endAccess_of_not_issued fun a res h => hissued ⟨a, res, h⟩]

/-- Only an OKAY write of the producer to a view has an effect on a page. -/
theorem endWrite_kept (s : State) {x : Port} {a : Access} {c : AccessClass}
    (h : ¬(x = .p ∧ a.write = true ∧ ∃ w p bk, c = .view w p bk)) : s.endWrite x a c = s := by
  unfold State.endWrite
  split
  next w p bk hw => exact absurd ⟨rfl, hw, w, p, bk, rfl⟩ h
  next => rfl

theorem endWrite_view (s : State) {a : Access} (h : a.write = true) (w : Fin 8) (p : Fin 512) (bk : Bank) :
    s.endWrite .p a (.view w p bk) = s.markDirty p := by
  unfold State.endWrite
  rw [h]

theorem markDirty_written {s : State} {p : Fin 512} (h : (s.page p).state = .synced ∨ (s.page p).state = .dirty) :
    s.markDirty p = s.setPage p { s.page p with state := .dirty } := by
  unfold State.markDirty
  rcases h with h | h <;> rw [h]

theorem markDirty_kept {s : State} {p : Fin 512} (hsynced : (s.page p).state ≠ .synced)
    (hdirty : (s.page p).state ≠ .dirty) : s.markDirty p = s := by
  unfold State.markDirty
  split
  next h => exact absurd h hsynced
  next h => exact absurd h hdirty
  all_goals rfl

theorem exec_response_port {s : State} {x : Port} {m : Access} (r : BusResp) (d : List Word)
    (h : s.mport = .busy (requesterOf x) m) (hnone : s.pendingFlip = none) :
    exec (.memoryResponse r d) s =
      .next (({ s with mport := .free } : State).endAccess x r d).rejudge.openDecision := by
  rw [exec_response_busy r d h, holderStep_port, flipAfter_none _ ((pendingFlip_endAccess { s with mport := .free } x r d).trans hnone)]

/-- R103: the pending flip takes effect after the access's own effect. -/
theorem exec_response_flips {s : State} {x : Port} {m : Access} {f : TakenCommit} (r : BusResp) (d : List Word)
    (h : s.mport = .busy (requesterOf x) m) (hf : s.pendingFlip = some f) :
    exec (.memoryResponse r d) s =
      .next ({ ({ s with mport := .free } : State).endAccess x r d with pendingFlip := none }.flip
        f).rejudge.openDecision := by
  rw [exec_response_busy r d h, holderStep_port, flipAfter_port_some x ((pendingFlip_endAccess { s with mport := .free } x r d).trans hf)]

theorem respond_page (s : State) (x : Port) (r : BusResp) (d : List Word) (p : Fin 512) :
    (s.respond x r d).page p = s.page p := by
  cases x <;> rfl

/-- R103: a copy burst's ending leaves the pending flip where it is. -/
theorem copyResponse_keeps_flip {s : State} {m : Access} {f : TakenCommit} (r : BusResp) (d : List Word)
    (h : s.mport = .busy .copy m) (hf : s.pendingFlip = some f) :
    ∃ t, exec (.memoryResponse r d) s = .next t ∧ t.pendingFlip = some f := by
  refine ⟨_, exec_response_copy r d h, ?_⟩
  show (State.rejudge _).pendingFlip = _
  rw [rejudge_pendingFlip, pendingFlip_copyResponse]
  exact hf

theorem portAccess_ends (s : State) (x : Port) (a m : Access) (res : Resolution) (r : BusResp) (d : List Word)
    (hm : s.mport = .busy (requesterOf x) m) (hissued : s.phaseOf x = .issued a res) (hnone : s.pendingFlip = none) :
    let t := ({ s with mport := .free } : State).respond x r (readBeats a d)
    (r = .okay → ¬(x = .p ∧ a.write = true ∧ ∃ w p bk, res.cls = .view w p bk) →
      exec (.memoryResponse r d) s = .next t.rejudge.openDecision) ∧
    (∀ w p bk, r = .okay → x = .p → a.write = true → res.cls = .view w p bk →
      ((s.page p).state = .synced ∨ (s.page p).state = .dirty →
        exec (.memoryResponse r d) s = .next (t.setPage p { s.page p with state := .dirty }).rejudge.openDecision) ∧
      ((s.page p).state ≠ .synced → (s.page p).state ≠ .dirty →
        exec (.memoryResponse r d) s = .next t.rejudge.openDecision)) ∧
    (∀ e, r = .error → memoryErrorOf x res.cls = some e →
      exec (.memoryResponse r d) s = .next (t.record e).rejudge.openDecision) ∧
    (r = .error → memoryErrorOf x res.cls = none →
      exec (.memoryResponse r d) s = .next t.rejudge.openDecision) := by
  intro t
  have hphase : ({ s with mport := .free } : State).phaseOf x = .issued a res := by
    cases x <;> exact hissued
  have hpage (p : Fin 512) : t.page p = s.page p := respond_page _ x r (readBeats a d) p
  rw [exec_response_port r d hm hnone]
  refine ⟨?_, ?_, ?_, ?_⟩
  · rintro rfl hplain
    rw [endAccess_okay hphase, endWrite_kept _ hplain]
  · rintro w p bk rfl rfl hw hcls
    rw [endAccess_okay hphase, hcls, endWrite_view _ hw]
    constructor
    · intro hstate
      rw [← hpage p] at hstate
      rw [markDirty_written hstate, hpage p]
    · intro hsynced hdirty
      rw [← hpage p] at hsynced hdirty
      rw [markDirty_kept hsynced hdirty]
  · rintro e rfl he
    rw [endAccess_error hphase d he]
  · rintro rfl he
    rw [endAccess_error_silent hphase d he]

theorem memoryErrorOf_silent {x : Port} {c : AccessClass} (hview : ∀ w p bk, c ≠ .view w p bk)
    (hmarker : ∀ w m, c ≠ .marker w m) : memoryErrorOf x c = none := by
  cases c with
  | view w p bk => exact absurd rfl (hview w p bk)
  | marker w m => exact absurd rfl (hmarker w m)
  | bankRegion w bank => rfl
  | plain => rfl

/-- Settles O40. -/
theorem portAccessEnds : Obligations.PortAccessEnds := by
  refine ⟨fun s r d => exec_response_idle r d, fun s x a m res r d hm hissued hnone => ?_, fun s f m r d hf => ?_⟩
  · have hbusy : s.mport = .busy (requesterOf x) m := by
      cases x <;> exact hm
    obtain ⟨hplain, hwritten, herror, hsilent⟩ := portAccess_ends s x a m res r d hbusy hissued hnone
    refine ⟨hplain, hwritten, fun w p bk hr hcls => ?_, fun w mk hr hcls => ?_,
      fun hr hview hmarker => hsilent hr (memoryErrorOf_silent hview hmarker)⟩
    · exact herror _ hr (by rw [hcls]; cases x <;> rfl)
    · exact herror _ hr (by rw [hcls]; cases x <;> rfl)
  · exact ⟨fun hm => exec_response_flips (x := .c) r d hm hf, fun hm => exec_response_flips (x := .p) r d hm hf,
      fun hm => copyResponse_keeps_flip r d hm hf⟩

/-! ## The Copy Engine's moves -/

theorem copyResponse_idle {s : State} (h : s.engine.page = none) (r : BusResp) (d : List Word) :
    s.copyResponse r d = s := by
  unfold State.copyResponse
  rw [h]

theorem copyResponse_okay {s : State} {p : Fin 512} (h : s.engine.page = some p) (d : List Word) :
    s.copyResponse .okay d = s.copyOkay p d := by
  unfold State.copyResponse
  rw [h]

theorem copyResponse_error {s : State} {p : Fin 512} (h : s.engine.page = some p) (d : List Word) :
    s.copyResponse .error d = s.copyFails p := by
  unfold State.copyResponse
  rw [h]

theorem copyOkay_read {s : State} {p : Fin 512} (h : s.engine.phase = .read) (hp : s.engine.page = some p)
    (d : List Word) :
    s.copyOkay p d = s.setEngine { s.engine with
      phase := .write, issued := false, buffer := (List.range 8).map fun i => d.getD i 0#32 } := by
  unfold State.copyOkay
  simp only [h, engineBurst_read h hp]
  rfl

theorem copyOkay_write {s : State} {p : Fin 512} (h : s.engine.phase = .write) (d : List Word)
    (hmore : s.engine.pair + 1 < (s.desc (s.owner p)).pairs) :
    s.copyOkay p d = s.setEngine { s.engine with phase := .read, pair := s.engine.pair + 1, issued := false } := by
  unfold State.copyOkay
  simp only [h, if_pos hmore]

theorem copyOkay_last {s : State} {p : Fin 512} (h : s.engine.phase = .write) (d : List Word)
    (hlast : (s.desc (s.owner p)).pairs ≤ s.engine.pair + 1) : s.copyOkay p d = s.copyEndsWell p := by
  unfold State.copyOkay
  simp only [h, if_neg (Nat.not_lt.2 hlast)]

/-- Settles O41. -/
theorem copyMovesOnOkay : Obligations.CopyMovesOnOkay := by
  intro s m d hm
  refine ⟨fun r hidle => ?_, fun p hpage hread => ?_, fun p hpage hwrite hmore => ?_⟩
  · rw [exec_response_copy r d hm, copyResponse_idle (s := { s with mport := .free }) hidle]
  · rw [exec_response_copy .okay d hm, copyResponse_okay (s := { s with mport := .free }) hpage,
      copyOkay_read (s := { s with mport := .free }) hread hpage]
    rfl
  · rw [exec_response_copy .okay d hm, copyResponse_okay (s := { s with mport := .free }) hpage,
      copyOkay_write (s := { s with mport := .free }) hwrite d hmore]
    rfl

/-! ## The end of a copy -/

theorem record_page (s : State) (e : Event) (p : Fin 512) : (s.record e).page p = s.page p :=
  congrArg (fun v : Vector PageEntry 512 => v[p.val]) (record_pages s e)

theorem record_window (s : State) (e : Event) (w : Fin 8) : (s.record e).window w = s.window w :=
  congrArg (fun v : Vector Window 8 => v[w.val]) (record_windows s e)

theorem owner_of_ownerOf {s : State} {p : Fin 512} {w : Fin 8} (h : s.ownerOf p = some w) : s.owner p = w := by
  unfold State.owner
  rw [h]
  rfl

theorem inRun_of_ownerOf {s : State} {p : Fin 512} {w : Fin 8} (h : s.ownerOf p = some w) :
    (s.desc w).inRun p = true := by
  unfold State.ownerOf at h
  have hfound := List.find?_some h
  exact (Bool.and_eq_true_iff.1 hfound).2

theorem mem_run_of_inRun {d : Descriptor} {p : Fin 512} (h : d.inRun p = true) : p ∈ d.run := by
  obtain ⟨hfirst, hlast⟩ := (inRun_iff d p).1 h
  exact List.mem_map.2 ⟨p.val, List.mem_range'_1.2 ⟨hfirst, hlast⟩, Fin.ext (ofNat_val_of_lt p.isLt)⟩

theorem pageCount_pos {s : State} {w : Fin 8} {p : Fin 512} {st : PageState}
    (hservice : (s.window w).enable ≠ .disabled) (hrun : (s.desc w).inRun p = true) (hst : (s.page p).state = st) :
    s.pageCount w st ≠ 0 := by
  unfold State.pageCount
  rw [if_neg hservice]
  exact Nat.ne_of_gt (List.length_pos_of_mem (List.mem_filter.2 ⟨mem_run_of_inRun hrun, beq_iff_eq.2 hst⟩))

theorem checkReady_ready {s : State} {w : Fin 8} (h : (s.window w).readyPending = true)
    (hstale : s.pageCount w .stale = 0) (hcopying : s.pageCount w .copying = 0) :
    s.checkReady w = (s.setWindow w { s.window w with readyPending := false }).record
      { kind := .windowReady, window := some w } := by
  unfold State.checkReady
  rw [if_pos (by rw [h, hstale, hcopying]; rfl)]

theorem checkReady_waits {s : State} {w : Fin 8}
    (h : (s.window w).readyPending = false ∨ s.pageCount w .stale ≠ 0 ∨ s.pageCount w .copying ≠ 0) :
    s.checkReady w = s := by
  unfold State.checkReady
  rw [if_neg]
  intro k
  obtain ⟨hready, hsum⟩ := Bool.and_eq_true_iff.1 k
  obtain ⟨hstale, hcopying⟩ := Nat.add_eq_zero_iff.1 (beq_iff_eq.1 hsum)
  rcases h with h | h | h
  · simp [h] at hready
  · exact h hstale
  · exact h hcopying

theorem copyEndsWell_enabled {s : State} {p : Fin 512} {w : Fin 8} (hw : s.owner p = w)
    (h : (s.window w).enable = .enabled) :
    s.copyEndsWell p =
      (s.engineIdle.setPage p { s.page p with state := .synced, attempts := 0#2 }).checkReady w := by
  unfold State.copyEndsWell
  simp only [hw, h]

theorem copyEndsWell_draining {s : State} {p : Fin 512} {w : Fin 8} (hw : s.owner p = w)
    (h : (s.window w).enable = .draining) : s.copyEndsWell p = s.engineIdle.endDrain w p := by
  unfold State.copyEndsWell
  simp only [hw, h]

/-- R122: the MEMORY_ERROR of a failed attempt, with the engine IDLE. -/
def copyFailed (s : State) (w : Fin 8) (p : Fin 512) : State :=
  s.engineIdle.record
    { kind := .memoryError, window := some w, detail := copyDetail, page := some p,
      count := (s.page p).attempts.setWidth 8 }

theorem copyFails_enabled {s : State} {p : Fin 512} {w : Fin 8} (hw : s.owner p = w)
    (h : (s.window w).enable = .enabled) :
    s.copyFails p = ((copyFailed s w p).attemptFailed w p).checkReady w := by
  unfold State.copyFails copyFailed
  simp only [hw, h]

theorem copyFails_draining {s : State} {p : Fin 512} {w : Fin 8} (hw : s.owner p = w)
    (h : (s.window w).enable = .draining) : s.copyFails p = (copyFailed s w p).endDrain w p := by
  unfold State.copyFails copyFailed
  simp only [hw, h]

theorem copyFailed_page (s : State) (w : Fin 8) (p q : Fin 512) : (copyFailed s w p).page q = s.page q :=
  record_page s.engineIdle _ q

theorem copyFailed_window (s : State) (w v : Fin 8) (p : Fin 512) : (copyFailed s w p).window v = s.window v :=
  record_window s.engineIdle _ v

theorem attemptFailed_broken {s : State} {p : Fin 512} (w : Fin 8) (h : (s.page p).attempts = 3#2) :
    s.attemptFailed w p = (s.setPage p { s.page p with state := .broken }).record
      { kind := .pageBroken, window := some w, page := some p, count := 3#8 } := by
  unfold State.attemptFailed
  simp only [if_pos h]

theorem attemptFailed_retry {s : State} {p : Fin 512} (w : Fin 8) (h : (s.page p).attempts ≠ 3#2) :
    s.attemptFailed w p =
      { (s.setPage p { s.page p with state := .stale }) with copyQueue := p :: s.copyQueue }.record
        { kind := .copyRetry, window := some w, page := some p, count := (s.page p).attempts.setWidth 8 } := by
  unfold State.attemptFailed
  simp only [if_neg h]

/-- R123: after a retry the page of the attempt is STALE, so its window is not ready yet. -/
theorem checkReady_retried {s : State} {p : Fin 512} {w : Fin 8} (hservice : (s.window w).enable ≠ .disabled)
    (hrun : (s.desc w).inRun p = true) (h : (s.page p).attempts ≠ 3#2) :
    (s.attemptFailed w p).checkReady w = s.attemptFailed w p := by
  refine checkReady_waits (.inr (.inl ?_))
  rw [attemptFailed_retry w h]
  refine pageCount_pos (p := p) ?_ ?_ ?_
  · rw [record_window]
    exact hservice
  · rw [State.desc, record_window]
    exact hrun
  · rw [record_page]
    exact congrArg PageEntry.state (page_setPage_same s p { s.page p with state := .stale })

/-- R127: the end of a drain, with the page and the window written as they were before. -/
theorem endDrain_eq {s t : State} {w : Fin 8} {p : Fin 512} (hpage : t.page p = s.page p)
    (hwindow : t.window w = s.window w) :
    t.endDrain w p = ((t.setPage p { s.page p with state := .unused, attempts := 0#2 }).setWindow w
      { s.window w with enable := .disabled }).record { kind := .windowDisabled, window := some w } := by
  unfold State.endDrain
  rw [hpage, hwindow]

/-- Settles O42. -/
theorem copyEnds : Obligations.CopyEnds := by
  intro s m d p w hm hpage howner i e failed drained last
  have hw := owner_of_ownerOf howner
  have hrun := inRun_of_ownerOf howner
  let u : State := { s with mport := .free }
  have hokay : exec (.memoryResponse .okay d) s = .next (u.copyOkay p d).rejudge.openDecision := by
    rw [exec_response_copy .okay d hm, copyResponse_okay (s := u) hpage]
  have herror : exec (.memoryResponse .error d) s = .next (u.copyFails p).rejudge.openDecision := by
    rw [exec_response_copy .error d hm, copyResponse_error (s := u) hpage]
  have hwell (hlast : last) : u.copyOkay p d = u.copyEndsWell p :=
    copyOkay_last (s := u) hlast.1 d (show (s.desc (s.owner p)).pairs ≤ _ from hw ▸ hlast.2)
  have hfailed : copyFailed u w p = failed := rfl
  have hfailedPage : failed.page p = s.page p := copyFailed_page u w p p
  have hfailedWindow : failed.window w = s.window w := copyFailed_window u w w p
  refine ⟨fun hlast hen => ?_, fun hlast hdrain => ?_, fun hen hcount => ?_, fun hen hcount => ?_, fun hdrain => ?_,
    fun t v => ⟨checkReady_ready, checkReady_waits⟩⟩
  · rw [hokay, hwell hlast, copyEndsWell_enabled (s := u) hw hen]
    rfl
  · rw [hokay, hwell hlast, copyEndsWell_draining (s := u) hw hdrain, endDrain_eq (s := s) (t := u.engineIdle) rfl rfl]
    rfl
  · have hretry : (failed.page p).attempts ≠ 3#2 := hfailedPage.symm ▸ hcount
    rw [herror, copyFails_enabled (s := u) hw hen, hfailed, checkReady_retried ?_ ?_ hretry,
      attemptFailed_retry w hretry, hfailedPage]
    · show Host.Outcome.next (State.rejudge (State.record { failed.setPage _ _ with copyQueue := p :: failed.copyQueue }
        _)).openDecision = _
      rw [show failed.copyQueue = s.copyQueue from record_copyQueue i _]
    · rw [hfailedWindow, hen]
      decide
    · rw [State.desc, hfailedWindow]
      exact hrun
  · have hlast : (failed.page p).attempts = 3#2 := hfailedPage.symm ▸ hcount
    rw [herror, copyFails_enabled (s := u) hw hen, hfailed, attemptFailed_broken w hlast, hfailedPage]
  · rw [herror, copyFails_draining (s := u) hw hdrain, hfailed, endDrain_eq hfailedPage hfailedWindow]

end Sys2Proof.Laws
end

section
/-! What ENABLE, DISABLE, RESYNC, DISARM and RELEASE do, and a rise of FRZ. Settles O48, O49, O50 and O52. -/

namespace Sys2Proof.Laws

open Sys2Proof Sys2Proof.Machine

/-! ## The window actions -/

/-- Settles O48. -/
theorem enablePutsTheWindowInService : Obligations.EnablePutsTheWindowInService := by
  intro s w hready hsettled hdisabled hok
  rw [exec_enable w hready hsettled, enableWindow_taken hdisabled hok]
  rfl

theorem exec_disable {s : State} (w : Fin 8) (hp : s.portReady) (hs : s.Settled) :
    exec (.disable (BitVec.ofNat 8 w.val)) s =
      .next ((s.disableWindow w).1.answer [(s.disableWindow w).2.code]) :=
  event_windowAction w State.disableWindow hp hs

theorem exec_resync {s : State} (w : Fin 8) (hp : s.portReady) (hs : s.Settled) :
    exec (.resync (BitVec.ofNat 8 w.val)) s =
      .next ((s.resyncWindow w).1.answer [(s.resyncWindow w).2.code]) :=
  event_windowAction w State.resyncWindow hp hs

theorem exec_disarm {s : State} (w : Fin 8) (hp : s.portReady) (hs : s.Settled) :
    exec (.disarm (BitVec.ofNat 8 w.val)) s =
      .next ((s.disarmWindow w).1.answer [(s.disarmWindow w).2.code]) :=
  event_windowAction w State.disarmWindow hp hs

theorem disableWindow_disabled {s : State} {w : Fin 8} (h : (s.window w).enable = .disabled) :
    s.disableWindow w = (s, .ok) := by
  unfold State.disableWindow
  rw [h]

theorem disableWindow_draining {s : State} {w : Fin 8} (h : (s.window w).enable = .draining) :
    s.disableWindow w = (s, .busy) := by
  unfold State.disableWindow
  rw [h]

theorem disableWindow_drains {s : State} {w : Fin 8} (h : (s.window w).enable = .enabled)
    (hflight : s.inFlight w = true) : s.disableWindow w = ((s.leaveService w .draining).rejudge, .ok) := by
  unfold State.disableWindow
  rw [h]
  exact if_pos hflight

theorem disableWindow_leaves {s : State} {w : Fin 8} (h : (s.window w).enable = .enabled)
    (hflight : ¬s.inFlight w = true) :
    s.disableWindow w =
      (((s.leaveService w .disabled).record { kind := .windowDisabled, window := some w }).rejudge, .ok) := by
  unfold State.disableWindow
  rw [h]
  exact if_neg hflight

/-- Settles O49. -/
theorem disableByEnableState : Obligations.DisableByEnableState := by
  intro s w hready hsettled act out inFlight
  have hact : exec act s = .next ((s.disableWindow w).1.answer [(s.disableWindow w).2.code]) :=
    exec_disable w hready hsettled
  rw [hact]
  refine ⟨fun h => ?_, fun h => ?_, fun h hflight => ?_, fun h hflight => ?_⟩
  · rw [disableWindow_disabled h]
    rfl
  · rw [disableWindow_draining h]
    rfl
  · rw [disableWindow_drains h ((inFlight_iff s w).2 hflight)]
    rfl
  · rw [disableWindow_leaves h fun k => hflight ((inFlight_iff s w).1 k)]
    rfl

theorem resyncWindow_outOfService {s : State} {w : Fin 8} (h : (s.window w).enable ≠ .enabled) :
    s.resyncWindow w = (s, .refusedState) := by
  unfold State.resyncWindow
  cases he : (s.window w).enable with
  | enabled => exact absurd he h
  | disabled => rfl
  | draining => rfl

theorem resyncWindow_enabled {s : State} {w : Fin 8} (h : (s.window w).enable = .enabled) :
    s.resyncWindow w = ((s.returnBroken w).rejudge, .ok) := by
  unfold State.resyncWindow
  rw [h]

theorem disarmWindow_outOfService {s : State} {w : Fin 8} (h : (s.window w).enable ≠ .enabled) :
    s.disarmWindow w = (s, .refusedState) := by
  unfold State.disarmWindow
  cases he : (s.window w).enable with
  | enabled => exact absurd he h
  | disabled => rfl
  | draining => rfl

theorem isSealed_iff (s : State) (w : Fin 8) : s.isSealed w = true ↔ (s.window w).commit ≠ .isOpen :=
  bne_iff_ne

theorem disarmWindow_open {s : State} {w : Fin 8} (h : (s.window w).enable = .enabled)
    (hopen : (s.window w).commit = .isOpen) : s.disarmWindow w = (s, .ok) := by
  unfold State.disarmWindow
  rw [h]
  exact if_neg fun k => (isSealed_iff s w).1 k hopen

theorem disarmWindow_sealed {s : State} {w : Fin 8} (h : (s.window w).enable = .enabled)
    (hsealed : (s.window w).commit ≠ .isOpen) : s.disarmWindow w = ((s.disarmed w).rejudge, .ok) := by
  unfold State.disarmWindow
  rw [h]
  exact if_pos ((isSealed_iff s w).2 hsealed)

/-- R98: DISARM ends the deferral of its window's group, where there is one. -/
theorem disarmed_idle {s : State} {w : Fin 8}
    (h : (s.group (Fin.ofNat 4 (s.desc w).group.toNat)).state = .idle) :
    s.disarmed w = s.setWindow w { s.window w with commit := .isOpen } := by
  have hgroup : ((s.setWindow w { s.window w with commit := .isOpen }).group
      (Fin.ofNat 4 (s.desc w).group.toNat)).state = .idle := h
  unfold State.disarmed
  simp only [hgroup]

theorem disarmed_deferred {s : State} {w : Fin 8}
    (h : (s.group (Fin.ofNat 4 (s.desc w).group.toNat)).state = .deferred) :
    s.disarmed w = (s.setWindow w { s.window w with commit := .isOpen }).groupIdle
      (Fin.ofNat 4 (s.desc w).group.toNat) := by
  have hgroup : ((s.setWindow w { s.window w with commit := .isOpen }).group
      (Fin.ofNat 4 (s.desc w).group.toNat)).state = .deferred := h
  unfold State.disarmed
  simp only [hgroup]

/-- Settles O50. -/
theorem resyncAndDisarm : Obligations.ResyncAndDisarm := by
  intro s w hready hsettled g opened damaged resync disarm
  have hresync : exec resync s = .next ((s.resyncWindow w).1.answer [(s.resyncWindow w).2.code]) :=
    exec_resync w hready hsettled
  have hdisarm : exec disarm s = .next ((s.disarmWindow w).1.answer [(s.disarmWindow w).2.code]) :=
    exec_disarm w hready hsettled
  rw [hresync, hdisarm]
  refine ⟨fun h => ⟨?_, ?_⟩, fun h => ?_, fun h hopen => ?_, fun h hsealed => ⟨fun hg => ?_, fun hg => ?_⟩⟩
  · rw [resyncWindow_outOfService h]
    rfl
  · rw [disarmWindow_outOfService h]
    rfl
  · rw [resyncWindow_enabled h]
    rfl
  · rw [disarmWindow_open h hopen]
    rfl
  · rw [disarmWindow_sealed h hsealed, disarmed_idle hg]
    rfl
  · rw [disarmWindow_sealed h hsealed, disarmed_deferred hg]
    rfl

/-! ## The freeze line and RELEASE -/

/-- R145: the state in which the line is high and its flag and the latch are set, before the record. -/
def lineHigh (s : State) : State :=
  { s with
    frz := { pin := true, accepted := true, run := 0 },
    freeze := { s.freeze with level := true, line := true, latch := true } }

theorem acceptFrz_rise_of_clear {s : State} (h : s.frz.accepted = false) (hline : s.freeze.line = false) :
    s.acceptFrz true = (lineHigh s).record { kind := .frozen, detail := 0x01#8 } := by
  unfold State.acceptFrz
  rw [h]
  exact if_neg (Bool.eq_false_iff.1 hline)

theorem acceptFrz_rise_freeze {s : State} (h : s.frz.accepted = false) :
    (s.acceptFrz true).freeze = { s.freeze with level := true, line := true, latch := true } := by
  cases hline : s.freeze.line with
  | true => rw [acceptFrz_rise_of_line h hline]
  | false =>
    rw [acceptFrz_rise_of_clear h hline, record_freeze]
    rfl

theorem releaseAction_refused {s : State} (hlatch : s.freeze.latch = true) (hlevel : s.freeze.level = true) :
    s.releaseAction = (s, .refusedLine) := by
  unfold State.releaseAction
  rw [if_pos hlatch, if_pos hlevel]

theorem releaseAction_released {s : State} (hlatch : s.freeze.latch = true) (hlevel : s.freeze.level = false) :
    s.releaseAction =
      (({ s with freeze := { latch := false, line := false, command := false, level := false } } : State).record
        { kind := .released }, .ok) := by
  unfold State.releaseAction
  simp only [hlatch, hlevel, if_true, Bool.false_eq_true, if_false]

theorem releaseAction_clear {s : State} (hlatch : s.freeze.latch = false) : s.releaseAction = (s, .ok) := by
  unfold State.releaseAction
  rw [if_neg (Bool.eq_false_iff.1 hlatch)]

/-- Settles O52. -/
theorem lineRiseAndRelease : Obligations.LineRiseAndRelease := by
  refine ⟨fun s hsettled haccepted => ?_, fun s arg hready hsettled => ?_⟩
  · intro t
    rw [exec_frzRise hsettled]
    refine ⟨fun hline => ?_, fun hline => ?_, ?_⟩
    · rw [acceptFrz_rise_of_clear haccepted hline]
      rfl
    · rw [acceptFrz_rise_of_line haccepted hline]
    · rintro _ ⟨rfl⟩
      have hfreeze : (s.acceptFrz true).freeze = t.freeze := acceptFrz_rise_freeze haccepted
      exact ⟨hfreeze, fun g hg => groupOutcome_skip hg (congrArg FreezeUnit.latch hfreeze)⟩
  · rw [exec_release arg hready hsettled]
    refine ⟨fun hlatch hlevel => ?_, fun hlatch hlevel => ?_, fun hlatch => ?_⟩
    · rw [releaseAction_refused hlatch hlevel]
      rfl
    · rw [releaseAction_released hlatch hlevel]
      rfl
    · rw [releaseAction_clear hlatch]
      rfl

end Sys2Proof.Laws
end
